-- ==== Sys2Proof/Word.lean ====
section
/-! DEFINITION. The word types of the CSE: Byte, Word, and the 16-byte Block with its columns (00_scope.md R10, R11). -/

namespace Sys2Proof

/-- An unsigned 8-bit value (R11). -/
abbrev Byte := BitVec 8

/-- The width of every host-visible register (R10, R20). -/
abbrev Word := BitVec 32

/-- A Block: sixteen Bytes `b[0] .. b[15]` (R11), byte 0 first. -/
structure Block where
  b0 : Byte
  b1 : Byte
  b2 : Byte
  b3 : Byte
  b4 : Byte
  b5 : Byte
  b6 : Byte
  b7 : Byte
  b8 : Byte
  b9 : Byte
  b10 : Byte
  b11 : Byte
  b12 : Byte
  b13 : Byte
  b14 : Byte
  b15 : Byte
  deriving DecidableEq, Repr, Inhabited

/-- One column `(s[0][c], s[1][c], s[2][c], s[3][c])` of the AES state (R104, R108). -/
@[ext] structure Column where
  r0 : Byte
  r1 : Byte
  r2 : Byte
  r3 : Byte
  deriving DecidableEq, Repr, Inhabited

/-- The zero Block: the implicit initialisation vector and start of every chain (R145, R147). -/
def Block.zero : Block :=
  ⟨0#8, 0#8, 0#8, 0#8, 0#8, 0#8, 0#8, 0#8, 0#8, 0#8, 0#8, 0#8, 0#8, 0#8, 0#8, 0#8⟩

end Sys2Proof
end

