-- ==== Sys2Proof/Config.lean ====
section
/-! DEFINITION. What an implementation fixes: the spec's default parameters (00_scope.md R9), what unlisted memory reads as, and the free values. -/

namespace Sys2Proof

/-- The spec's default for `AW` (R9, D5). -/
def Config.defaultAw : Nat := 32

/-- The spec's default for `HAS_AES` (R9, D12). -/
def Config.defaultHasAes : Bool := true

/-- The spec's default for `CHAIN_FB_INIT` (R9, D21). -/
def Config.defaultChainFbInit : Byte := 0x00#8

/-- `ENGINE_BASE` is OPEN (R9, D32): DESIGN CHOICE, unsafe: `State.reset` places the register block at 0 (log 12). -/
def Config.defaultEngineBase : Nat := 0

/-- What a byte of memory that nothing has written reads as: DESIGN CHOICE, unsafe (log 1). -/
def Config.unlistedByte : Byte := 0x00#8

/-- A free 32-bit value, one for each draw: DOUT read while busy (R206, U7; log 7). -/
opaque Config.freeWord : (draw : Nat) → Word

/-- A free Byte for each draw and each place: memory after an interrupting reset (R252, U8; log 8), P, PI, PJ and L after a reset (R52; log 5). -/
opaque Config.freeByte : (draw place : Nat) → Byte

/-- A free Block for each draw and each key-schedule slot: slots whose valid bit is 0 (R43, U14; logs 5 and 6). -/
opaque Config.freeBlock : (draw slot : Nat) → Block

end Sys2Proof
end

