-- ==== Sys2Proof/Syntax.lean ====
section
/-! DEFINITION. The 22 commands of "CSE command set 1" (30_encoding.md R88), one constructor per row of spec/opcode_table.json. -/

namespace Sys2Proof

/-- A command. The only operands inside the command word are those of the ARG field (R87); all others come from registers. -/
inductive Instr where
  /-- AES_KEYINIT (R119); `dec` is ARG bit 0. -/
  | aesKeyinit (dec : Bool)
  /-- AES_ENCBLK (R141). -/
  | aesEncblk
  /-- AES_DECBLK (R142). -/
  | aesDecblk
  /-- AES_ECB_ENC (R143). -/
  | aesEcbEnc
  /-- AES_ECB_DEC (R144). -/
  | aesEcbDec
  /-- AES_CBC_ENC (R145). -/
  | aesCbcEnc
  /-- AES_CBC_DEC (R146). -/
  | aesCbcDec
  /-- XOR_CHAIN_ENC (R147). -/
  | xorChainEnc
  /-- XOR_CHAIN_DEC (R148). -/
  | xorChainDec
  /-- AES_RKREAD (R120); `slot` is ARG. -/
  | aesRkread (slot : Byte)
  /-- AES_ROUND_ENC (R121). -/
  | aesRoundEnc
  /-- AES_ROUND_ENCLAST (R122). -/
  | aesRoundEnclast
  /-- AES_ROUND_DEC (R123). -/
  | aesRoundDec
  /-- AES_ROUND_DECLAST (R124). -/
  | aesRoundDeclast
  /-- AES_INVMIX (R125). -/
  | aesInvmix
  /-- AES_KEYSTEP (R126); `rc` is ARG. -/
  | aesKeystep (rc : Byte)
  /-- STR_INIT (R173). -/
  | strInit
  /-- STR_XFORM (R174). -/
  | strXform
  /-- STR_SAVE (R175). -/
  | strSave
  /-- STR_LOAD (R176). -/
  | strLoad
  /-- CHN_ENC (R191). -/
  | chnEnc
  /-- CHN_DEC (R192). -/
  | chnDec
  deriving DecidableEq, Repr

end Sys2Proof
end

