-- ==== Sys2Proof/Machine/State.lean ====
section
/-! DEFINITION. The state of the CSE (10_state.md), its reset value (R52), and the reasons a step can stop (60_exceptions.md R239). Plain data throughout. -/

namespace Sys2Proof.Machine

/-- The error codes of R221. Codes 0x0B to 0xFF do not exist. -/
inductive ErrCode where
  | none
  | illegalCmd
  | unsupported
  | noKey
  | noInvKey
  | noStream
  | badKeyLen
  | badLength
  | range
  | overlap
  | badState
  deriving DecidableEq, Repr

/-- Four 32-bit registers that hold one Block: KEY, DIN, DOUT or RKIN (R13). -/
@[ext] structure Quad where
  w0 : Word
  w1 : Word
  w2 : Word
  w3 : Word
  deriving DecidableEq, Repr

/-- The launch latch L (R46). -/
structure Latch where
  op : Byte
  arg : Byte
  rsv : BitVec 16
  addr : Word
  len : Word
  kaddr : Word
  klen : Word
  key : Block
  din : Block
  rkin : Block
  deriving DecidableEq, Repr

/-- The SCU's permutation table and its two indices (R44). -/
structure Generator where
  p : Vector Byte 256
  pi : Byte
  pj : Byte
  deriving DecidableEq, Repr

/-- One engine instance: its parameters (00_scope.md R9), its register block (R20) and its internal state (R42 to R46). -/
structure Engine where
  /-- `ENGINE_BASE` of this instance (R9). -/
  base : Nat
  /-- `HAS_AES` (R9, R21). -/
  hasAes : Bool
  /-- `CHAIN_FB_INIT` (R9). -/
  chainFbInit : Byte
  /-- CTRL.IE (R22). -/
  ie : Bool
  /-- STATUS.BUSY (R24). -/
  busy : Bool
  /-- STATUS.DONE (R25). -/
  done : Bool
  /-- STATUS.ERR (R26). -/
  err : Bool
  /-- STATUS.OVR (R27). -/
  ovr : Bool
  /-- STATUS.ERRCODE (R28). -/
  errcode : ErrCode
  /-- STATUS.KEY_VALID (R29). -/
  keyValid : Bool
  /-- STATUS.INV_VALID (R30). -/
  invValid : Bool
  /-- STATUS.STREAM_VALID (R31). -/
  streamValid : Bool
  /-- ADDR (R33). -/
  addr : Word
  /-- LEN (R34). -/
  len : Word
  /-- KADDR (R35). -/
  kaddr : Word
  /-- KLEN (R36). -/
  klen : Word
  /-- KEY0 to KEY3 (R37). -/
  key : Quad
  /-- DIN0 to DIN3 (R38). -/
  din : Quad
  /-- DOUT0 to DOUT3 (R39). -/
  dout : Quad
  /-- RKIN0 to RKIN3 (R40). -/
  rkin : Quad
  /-- The key schedule RKS[0..19] (R42). -/
  rks : Vector Block 20
  /-- P, PI, PJ (R44). -/
  gen : Generator
  /-- L (R46). -/
  latch : Latch
  deriving DecidableEq, Repr

/-- A range of memory addresses `[base, base + size)` (20_memory.md R66). -/
structure Region where
  base : Nat
  size : Nat
  deriving DecidableEq, Repr

/-- The memory `Mem` (00_scope.md R14): listed cells in strictly rising order, none equal to what an unlisted address reads as (log 1). -/
abbrev Memory := List Host.Cell

/-- What an agent does next (00_scope.md R6). The host's four operations are those of 30_encoding.md R92. -/
inductive Event where
  /-- A host write to the register space at a bus address, `width` bits wide (R86, R65). -/
  | regWrite (address : Nat) (width : Nat) (value : Word)
  /-- A host read from the register space (R86, R65). -/
  | regRead (address : Nat) (width : Nat)
  /-- A host memory write of a byte sequence, `mw a, hex` (R92). -/
  | memWrite (address : Nat) (bytes : List Byte)
  /-- A host memory read, `mr a, n` (R92). -/
  | memRead (address : Nat) (count : Nat)
  /-- The engine instance with this number takes its completion step (44_control.md R202). -/
  | complete (number : Nat)
  /-- The platform resets the engine instance with this number (70_reset_and_hazards.md R250). -/
  | reset (number : Nat)
  deriving DecidableEq, Repr

/-- What stops the machine. Each is one of R239, or an address that does not exist. -/
inductive Fault where
  /-- Raised by a host memory access to a byte of the footprint of a command in flight (R74, R239, U10). Safe: the model stops. -/
  | footprintAccess
  /-- Raised by a launch while another instance is busy and the two footprints overlap (R243, U17). Safe: the model stops. -/
  | footprintOverlap
  /-- Raised by a completion that would access memory the platform refuses (R71, R239, U12): the engine is stuck. Safe: the model stops. -/
  | engineStuck
  /-- Raised by a host memory access that passes address 2^AW - 1 (R14; log 18). Safe: the model stops. -/
  | noSuchAddress
  deriving DecidableEq, Repr

/-- What the model refuses to give a meaning to. -/
inductive Refusal where
  /-- Raised by `exec` for a command that has no meaning yet. Safe: no meaning is given. -/
  | notModelled (mnemonic : String)
  /-- Raised by a register access that is not 32 bits wide and 4-byte aligned (R65, R239, U11). Safe. -/
  | registerAccessForm
  /-- Raised by a register access at an address in no instance's register block (R86; log 17). Safe. -/
  | noRegisterBlock
  /-- Raised by a launch whose footprint names memory with read side effects (R69, R239, U13). Safe. -/
  | deviceFootprint
  /-- Raised by a host memory access to memory with read side effects (R69; log 16): the spec does not say what is there. Safe. -/
  | deviceAccess
  deriving DecidableEq, Repr

/-- The whole machine: every engine instance (R243), the memory they share, the platform's choices, and what the agents do next.
One instance is in focus; `left` holds those with smaller numbers, nearest first, `right` those with larger numbers (log 13). -/
structure State where
  /-- `AW` (R9). -/
  aw : Nat
  left : List Engine
  eng : Engine
  right : List Engine
  mem : Memory
  /-- Memory whose accesses the platform refuses to the engine's port (R71, U12; log 15). -/
  refusedMem : List Region
  /-- Memory that is not ordinary (R69, U13; log 16). -/
  deviceMem : List Region
  /-- What happens next, first event first (log 9). -/
  events : List Event
  /-- The value the last host register read returned (R92). -/
  rdata : Word
  /-- The bytes the last host memory read returned (R92). -/
  mdata : List Byte
  /-- How many free values have been drawn (log 23). -/
  draws : Nat
  deriving DecidableEq, Repr

/-- Four zero registers. -/
def Quad.zero : Quad := ⟨0#32, 0#32, 0#32, 0#32⟩

/-- The latch `State.reset` starts with: DESIGN CHOICE, unsafe (log 4); R52 leaves L unspecified. -/
def Latch.zero : Latch :=
  { op := 0x00#8, arg := 0x00#8, rsv := 0#16, addr := 0#32, len := 0#32, kaddr := 0#32, klen := 0#32,
    key := Block.zero, din := Block.zero, rkin := Block.zero }

/-- The generator `State.reset` starts with: DESIGN CHOICE, unsafe (log 3); R52 leaves P, PI and PJ unspecified. -/
def Generator.zero : Generator := ⟨Vector.replicate 256 0x00#8, 0x00#8, 0x00#8⟩

/-- The key schedule `State.reset` starts with: DESIGN CHOICE, unsafe (log 2); R52 leaves RKS unspecified. -/
def zeroSchedule : Vector Block 20 := Vector.replicate 20 Block.zero

/-- The reset values of R52 for an instance with these parameters, around the values R52 leaves unspecified. -/
def Engine.resetWith (base : Nat) (hasAes : Bool) (chainFbInit : Byte) (rks : Vector Block 20) (gen : Generator)
    (latch : Latch) : Engine :=
  { base := base, hasAes := hasAes, chainFbInit := chainFbInit,
    ie := false, busy := false, done := false, err := false, ovr := false, errcode := .none,
    keyValid := false, invValid := false, streamValid := false,
    addr := 0#32, len := 0#32, kaddr := 0#32, klen := 0#32,
    key := Quad.zero, din := Quad.zero, dout := Quad.zero, rkin := Quad.zero,
    rks := rks, gen := gen, latch := latch }

/-- An instance right after reset, as `State.reset` holds it. -/
def Engine.reset (base : Nat) (hasAes : Bool) (chainFbInit : Byte) : Engine :=
  Engine.resetWith base hasAes chainFbInit zeroSchedule Generator.zero Latch.zero

/-- The machine right after reset with the given parameters (R9): first instance in focus, the others in order. -/
def State.resetWith (aw : Nat) (first : Engine) (others : List Engine) : State :=
  { aw := aw, left := [], eng := first, right := others, mem := [], refusedMem := [], deviceMem := [],
    events := [], rdata := 0#32, mdata := [], draws := 0 }

/-- The machine right after reset with the spec's default parameters (R9, R52). -/
def State.reset : State :=
  State.resetWith Config.defaultAw
    (Engine.reset Config.defaultEngineBase Config.defaultHasAes Config.defaultChainFbInit) []

end Sys2Proof.Machine
end

