-- ==== Sys2Proof/Machine/Flags.lean ====
section
/-! DEFINITION. Every flag of the CSE (10_state.md R50): the CAPS, CTRL and STATUS words, the write-1-to-clear rule, what a launch and a completion do to the flags, and the irq output. -/

namespace Sys2Proof.Machine

/-- The code of each error (60_exceptions.md R221). -/
def ErrCode.toByte : ErrCode → Byte
  | .none => 0x00#8
  | .illegalCmd => 0x01#8
  | .unsupported => 0x02#8
  | .noKey => 0x03#8
  | .noInvKey => 0x04#8
  | .noStream => 0x05#8
  | .badKeyLen => 0x06#8
  | .badLength => 0x07#8
  | .range => 0x08#8
  | .overlap => 0x09#8
  | .badState => 0x0A#8

/-- One bit as a bit vector. -/
def bit (b : Bool) : BitVec 1 := if b then 1#1 else 0#1

/-- CAPS: bit 0 is `HAS_AES`, bits 1 and 2 are 1, the rest 0 (R21). -/
def Engine.capsWord (e : Engine) : Word := 0#29 ++ 1#1 ++ 1#1 ++ bit e.hasAes

/-- CTRL: bit 0 is IE, bits 31:1 read 0 (R22). -/
def Engine.ctrlWord (e : Engine) : Word := 0#31 ++ bit e.ie

/-- STATUS: the fields of R23 at their places, every other bit 0. -/
def Engine.statusWord (e : Engine) : Word :=
  0#13 ++ bit e.streamValid ++ bit e.invValid ++ bit e.keyValid ++ e.errcode.toByte ++ 0#4 ++
    bit e.ovr ++ bit e.err ++ bit e.done ++ bit e.busy

/-- `irq = CTRL.IE AND (STATUS.DONE OR STATUS.ERR)` (R47, R233). -/
def Engine.irq (e : Engine) : Bool := e.ie && (e.done || e.err)

/-- A write of v to CTRL (R22): `CTRL.IE <- v[0]`. -/
def Engine.writeCtrl (e : Engine) (v : Word) : Engine := { e with ie := v.getLsbD 0 }

/-- A write of v to STATUS (R23, R204): bit 1 clears DONE, bit 2 clears ERR and ERRCODE, bit 3 clears OVR. -/
def Engine.writeStatus (e : Engine) (v : Word) : Engine :=
  { e with
    done := e.done && !v.getLsbD 1
    err := e.err && !v.getLsbD 2
    errcode := if v.getLsbD 2 then .none else e.errcode
    ovr := e.ovr && !v.getLsbD 3 }

/-- The flags at a launch (R201): DONE, ERR and ERRCODE cleared, BUSY set; OVR is not changed (R27). -/
def Engine.flagsAtLaunch (e : Engine) : Engine :=
  { e with done := false, err := false, errcode := .none, busy := true }

/-- The flags at a completion with error (R202, R226): ERR, ERRCODE and BUSY, nothing else. -/
def Engine.flagsAtError (e : Engine) (c : ErrCode) : Engine := { e with err := true, errcode := c, busy := false }

/-- The flags at a completion without error (R202): DONE set, BUSY cleared. -/
def Engine.flagsAtFinish (e : Engine) : Engine := { e with done := true, busy := false }

/-- A CMD write while BUSY = 1 (R203, R27): OVR set, nothing else. -/
def Engine.setOverrun (e : Engine) : Engine := { e with ovr := true }

end Sys2Proof.Machine
end

