-- ==== Sys2Proof/WellFormed.lean ====
section
/-! DEFINITION. Which terms of `Instr` an encoding exists for: the "extra condition" column of 30_encoding.md R89. -/

namespace Sys2Proof

/-- The slot of AES_RKREAD is 0 to 19 (R88, R89, R120). -/
def slotLegal (slot : Byte) : Bool := decide (slot.toNat ≤ 19)

/-- Every other ARG operand admits every value of its type: DEC is one bit, the round constant any Byte (R87, R126). -/
def Instr.wellFormed : Instr → Bool
  | .aesKeyinit _ => true
  | .aesEncblk => true
  | .aesDecblk => true
  | .aesEcbEnc => true
  | .aesEcbDec => true
  | .aesCbcEnc => true
  | .aesCbcDec => true
  | .xorChainEnc => true
  | .xorChainDec => true
  | .aesRkread slot => slotLegal slot
  | .aesRoundEnc => true
  | .aesRoundEnclast => true
  | .aesRoundDec => true
  | .aesRoundDeclast => true
  | .aesInvmix => true
  | .aesKeystep _ => true
  | .strInit => true
  | .strXform => true
  | .strSave => true
  | .strLoad => true
  | .chnEnc => true
  | .chnDec => true

end Sys2Proof
end

