-- ==== Sys2Proof/Decode.lean ====
section
/-! DEFINITION. The decoder of command words (30_encoding.md R91), total on all words and rejecting by name, and after it the encoder (R88, R89). -/

namespace Sys2Proof

/-- Why a command word is illegal (R90); every one completes with ILLEGAL_CMD (60_exceptions.md R223). -/
inductive DecodeError where
  /-- RSV, bits 31:16, is not 0. -/
  | reservedNonzero
  /-- OP is in no row of the opcode map. -/
  | unassignedOp
  /-- ARG is not 0x00 for a command that takes none. -/
  | argNonzero
  /-- AES_KEYINIT with a bit of ARG[7:1] set. -/
  | keyinitArgReserved
  /-- AES_RKREAD with ARG greater than 19. -/
  | slotOutOfRange
  deriving DecidableEq, Repr

/-- OP, bits 7:0 of the command word (R87). -/
def opField (w : Word) : Byte := w.extractLsb' 0 8

/-- ARG, bits 15:8 (R87). -/
def argField (w : Word) : Byte := w.extractLsb' 8 8

/-- RSV, bits 31:16 (R87). -/
def rsvField (w : Word) : BitVec 16 := w.extractLsb' 16 16

/-- A command that needs ARG = 0x00 (R88, R91). -/
def noArg (arg : Byte) (i : Instr) : Except DecodeError Instr :=
  if arg = 0x00#8 then .ok i else .error .argNonzero

/-- `decode` of R91, on the three fields as the launch latch holds them (10_state.md R46). -/
def decodeFields (op arg : Byte) (rsv : BitVec 16) : Except DecodeError Instr :=
  if rsv ≠ 0#16 then .error .reservedNonzero
  else if op = 0x10#8 then
    if arg.extractLsb' 1 7 ≠ 0#7 then .error .keyinitArgReserved else .ok (.aesKeyinit (arg.getLsbD 0))
  else if op = 0x19#8 then
    if arg.toNat > 19 then .error .slotOutOfRange else .ok (.aesRkread arg)
  else if op = 0x25#8 then .ok (.aesKeystep arg)
  else if op = 0x11#8 then noArg arg .aesEncblk
  else if op = 0x12#8 then noArg arg .aesDecblk
  else if op = 0x13#8 then noArg arg .aesEcbEnc
  else if op = 0x14#8 then noArg arg .aesEcbDec
  else if op = 0x15#8 then noArg arg .aesCbcEnc
  else if op = 0x16#8 then noArg arg .aesCbcDec
  else if op = 0x17#8 then noArg arg .xorChainEnc
  else if op = 0x18#8 then noArg arg .xorChainDec
  else if op = 0x20#8 then noArg arg .aesRoundEnc
  else if op = 0x21#8 then noArg arg .aesRoundEnclast
  else if op = 0x22#8 then noArg arg .aesRoundDec
  else if op = 0x23#8 then noArg arg .aesRoundDeclast
  else if op = 0x24#8 then noArg arg .aesInvmix
  else if op = 0x30#8 then noArg arg .strInit
  else if op = 0x31#8 then noArg arg .strXform
  else if op = 0x32#8 then noArg arg .strSave
  else if op = 0x33#8 then noArg arg .strLoad
  else if op = 0x40#8 then noArg arg .chnEnc
  else if op = 0x41#8 then noArg arg .chnDec
  else .error .unassignedOp

/-- `decode(w)` of R91. -/
def decode (w : Word) : Except DecodeError Instr :=
  decodeFields (opField w) (argField w) (rsvField w)

/-- The decoder's answer to a row of spec/opcode_table.json: a command is one 32-bit word (R85), bits above `nbits` are 0. -/
def decodeTableWord (nbits w : Nat) : Option Instr :=
  if w % 2 ^ nbits < 2 ^ 32 then
    match decode (BitVec.ofNat 32 (w % 2 ^ nbits)) with
    | .ok i => some i
    | .error _ => none
  else none

/-- The OP byte of each command (R88). -/
def Instr.opcode : Instr → Byte
  | .aesKeyinit _ => 0x10#8
  | .aesEncblk => 0x11#8
  | .aesDecblk => 0x12#8
  | .aesEcbEnc => 0x13#8
  | .aesEcbDec => 0x14#8
  | .aesCbcEnc => 0x15#8
  | .aesCbcDec => 0x16#8
  | .xorChainEnc => 0x17#8
  | .xorChainDec => 0x18#8
  | .aesRkread _ => 0x19#8
  | .aesRoundEnc => 0x20#8
  | .aesRoundEnclast => 0x21#8
  | .aesRoundDec => 0x22#8
  | .aesRoundDeclast => 0x23#8
  | .aesInvmix => 0x24#8
  | .aesKeystep _ => 0x25#8
  | .strInit => 0x30#8
  | .strXform => 0x31#8
  | .strSave => 0x32#8
  | .strLoad => 0x33#8
  | .chnEnc => 0x40#8
  | .chnDec => 0x41#8

/-- The ARG byte of each command (R87, R88). -/
def Instr.argByte : Instr → Byte
  | .aesKeyinit dec => if dec then 0x01#8 else 0x00#8
  | .aesRkread slot => slot
  | .aesKeystep rc => rc
  | .aesEncblk => 0x00#8
  | .aesDecblk => 0x00#8
  | .aesEcbEnc => 0x00#8
  | .aesEcbDec => 0x00#8
  | .aesCbcEnc => 0x00#8
  | .aesCbcDec => 0x00#8
  | .xorChainEnc => 0x00#8
  | .xorChainDec => 0x00#8
  | .aesRoundEnc => 0x00#8
  | .aesRoundEnclast => 0x00#8
  | .aesRoundDec => 0x00#8
  | .aesRoundDeclast => 0x00#8
  | .aesInvmix => 0x00#8
  | .strInit => 0x00#8
  | .strXform => 0x00#8
  | .strSave => 0x00#8
  | .strLoad => 0x00#8
  | .chnEnc => 0x00#8
  | .chnDec => 0x00#8

/-- The command word of a command: RSV = 0, ARG, OP (R87, R93). -/
def encode (i : Instr) : Word := 0#16 ++ i.argByte ++ i.opcode

/-- The match column of R89. -/
def Instr.matchBits : Instr → Word
  | .aesKeyinit _ => 0x00000010#32
  | .aesEncblk => 0x00000011#32
  | .aesDecblk => 0x00000012#32
  | .aesEcbEnc => 0x00000013#32
  | .aesEcbDec => 0x00000014#32
  | .aesCbcEnc => 0x00000015#32
  | .aesCbcDec => 0x00000016#32
  | .xorChainEnc => 0x00000017#32
  | .xorChainDec => 0x00000018#32
  | .aesRkread _ => 0x00000019#32
  | .aesRoundEnc => 0x00000020#32
  | .aesRoundEnclast => 0x00000021#32
  | .aesRoundDec => 0x00000022#32
  | .aesRoundDeclast => 0x00000023#32
  | .aesInvmix => 0x00000024#32
  | .aesKeystep _ => 0x00000025#32
  | .strInit => 0x00000030#32
  | .strXform => 0x00000031#32
  | .strSave => 0x00000032#32
  | .strLoad => 0x00000033#32
  | .chnEnc => 0x00000040#32
  | .chnDec => 0x00000041#32

/-- The mask column of R89. -/
def Instr.maskBits : Instr → Word
  | .aesKeyinit _ => 0xFFFFFEFF#32
  | .aesEncblk => 0xFFFFFFFF#32
  | .aesDecblk => 0xFFFFFFFF#32
  | .aesEcbEnc => 0xFFFFFFFF#32
  | .aesEcbDec => 0xFFFFFFFF#32
  | .aesCbcEnc => 0xFFFFFFFF#32
  | .aesCbcDec => 0xFFFFFFFF#32
  | .xorChainEnc => 0xFFFFFFFF#32
  | .xorChainDec => 0xFFFFFFFF#32
  | .aesRkread _ => 0xFFFF00FF#32
  | .aesRoundEnc => 0xFFFFFFFF#32
  | .aesRoundEnclast => 0xFFFFFFFF#32
  | .aesRoundDec => 0xFFFFFFFF#32
  | .aesRoundDeclast => 0xFFFFFFFF#32
  | .aesInvmix => 0xFFFFFFFF#32
  | .aesKeystep _ => 0xFFFF00FF#32
  | .strInit => 0xFFFFFFFF#32
  | .strXform => 0xFFFFFFFF#32
  | .strSave => 0xFFFFFFFF#32
  | .strLoad => 0xFFFFFFFF#32
  | .chnEnc => 0xFFFFFFFF#32
  | .chnDec => 0xFFFFFFFF#32

end Sys2Proof
end

