-- ==== Sys2Proof/Machine/Block.lean ====
section
/-! DEFINITION. Operations on Blocks, byte by byte and column by column (00_scope.md R12; 40_block_cipher_core.md R104). -/

namespace Sys2Proof

/-- Bitwise exclusive-or of two Blocks, element by element (R12). -/
def Block.xor (a b : Block) : Block :=
  ⟨a.b0 ^^^ b.b0, a.b1 ^^^ b.b1, a.b2 ^^^ b.b2, a.b3 ^^^ b.b3, a.b4 ^^^ b.b4, a.b5 ^^^ b.b5,
    a.b6 ^^^ b.b6, a.b7 ^^^ b.b7, a.b8 ^^^ b.b8, a.b9 ^^^ b.b9, a.b10 ^^^ b.b10,
    a.b11 ^^^ b.b11, a.b12 ^^^ b.b12, a.b13 ^^^ b.b13, a.b14 ^^^ b.b14, a.b15 ^^^ b.b15⟩

/-- Sixteen independent byte lanes (R105). -/
def Block.mapBytes (f : Byte → Byte) (b : Block) : Block :=
  ⟨f b.b0, f b.b1, f b.b2, f b.b3, f b.b4, f b.b5, f b.b6, f b.b7,
    f b.b8, f b.b9, f b.b10, f b.b11, f b.b12, f b.b13, f b.b14, f b.b15⟩

/-- Column c of the state, `s[r][c] = b[r + 4c]` (R104), for c = 0 to 3. -/
def Block.col0 (b : Block) : Column := ⟨b.b0, b.b1, b.b2, b.b3⟩

/-- Column 1 (R104). -/
def Block.col1 (b : Block) : Column := ⟨b.b4, b.b5, b.b6, b.b7⟩

/-- Column 2 (R104). -/
def Block.col2 (b : Block) : Column := ⟨b.b8, b.b9, b.b10, b.b11⟩

/-- Column 3 (R104). -/
def Block.col3 (b : Block) : Column := ⟨b.b12, b.b13, b.b14, b.b15⟩

/-- The Block with the given four columns (R104). -/
def Block.ofColumns (c d e f : Column) : Block :=
  ⟨c.r0, c.r1, c.r2, c.r3, d.r0, d.r1, d.r2, d.r3, e.r0, e.r1, e.r2, e.r3, f.r0, f.r1, f.r2, f.r3⟩

/-- A transform of each column on its own (R108, R109). -/
def Block.mapColumns (f : Column → Column) (b : Block) : Block :=
  Block.ofColumns (f (Block.col0 b)) (f (Block.col1 b)) (f (Block.col2 b)) (f (Block.col3 b))

/-- Exclusive-or of two columns (R12). -/
def Column.xor (a b : Column) : Column := ⟨a.r0 ^^^ b.r0, a.r1 ^^^ b.r1, a.r2 ^^^ b.r2, a.r3 ^^^ b.r3⟩

/-- The Block as a byte sequence, byte 0 first (R11). -/
def Block.toBytes (b : Block) : List Byte :=
  [b.b0, b.b1, b.b2, b.b3, b.b4, b.b5, b.b6, b.b7, b.b8, b.b9, b.b10, b.b11, b.b12, b.b13, b.b14, b.b15]

end Sys2Proof
end

