-- ==== Sys2Proof/Machine/Operands.lean ====
section
/-! DEFINITION. Every operand form: the packing of Blocks into registers (00_scope.md R13), the key-schedule slots, the launch latch (10_state.md R46), and the footprint of each command (20_memory.md R66). -/

namespace Sys2Proof.Machine

/-- Byte k of a register: bits `8k+7:8k` (R13). -/
def wordByte (w : Word) (k : Nat) : Byte := w.extractLsb' (8 * k) 8

/-- The word `B[4n] + 256*B[4n+1] + 65536*B[4n+2] + 16777216*B[4n+3]` (R13). -/
def wordOfBytes (x0 x1 x2 x3 : Byte) : Word := x3 ++ x2 ++ x1 ++ x0

/-- `blk(R0, R1, R2, R3)`: byte `4n+k` is bits `8k+7:8k` of register n (R13, R63). -/
def blk (q : Quad) : Block :=
  ⟨wordByte q.w0 0, wordByte q.w0 1, wordByte q.w0 2, wordByte q.w0 3,
   wordByte q.w1 0, wordByte q.w1 1, wordByte q.w1 2, wordByte q.w1 3,
   wordByte q.w2 0, wordByte q.w2 1, wordByte q.w2 2, wordByte q.w2 3,
   wordByte q.w3 0, wordByte q.w3 1, wordByte q.w3 2, wordByte q.w3 3⟩

/-- `unblk(B)`: the four register words of a Block (R13). -/
def unblk (b : Block) : Quad :=
  ⟨wordOfBytes b.b0 b.b1 b.b2 b.b3, wordOfBytes b.b4 b.b5 b.b6 b.b7,
   wordOfBytes b.b8 b.b9 b.b10 b.b11, wordOfBytes b.b12 b.b13 b.b14 b.b15⟩

/-- Register n of a group of four. -/
def Quad.get (q : Quad) (n : Fin 4) : Word :=
  match n with
  | 0 => q.w0
  | 1 => q.w1
  | 2 => q.w2
  | 3 => q.w3

/-- Register n of a group of four replaced. -/
def Quad.set (q : Quad) (n : Fin 4) (v : Word) : Quad :=
  match n with
  | 0 => { q with w0 := v }
  | 1 => { q with w1 := v }
  | 2 => { q with w2 := v }
  | 3 => { q with w3 := v }

/-- `RKS[k]` (R42); slots are 0 to 19, no rule reads another. -/
def Engine.slot (e : Engine) (k : Nat) : Block := if h : k < 20 then e.rks[k] else Block.zero

/-- `RK[r]` as the modes read it: slot r (R42). -/
def Engine.fwdKey (e : Engine) (r : Nat) : Block := e.slot r

/-- `IK[m]` as the modes read it: slot `11 + m` (R42, R115). -/
def Engine.invKey (e : Engine) (m : Nat) : Block := e.slot (11 + m)

/-- The latch a launch of word w captures (R46, R201). -/
def captureLatch (e : Engine) (w : Word) : Latch :=
  { op := opField w, arg := argField w, rsv := rsvField w,
    addr := e.addr, len := e.len, kaddr := e.kaddr, klen := e.klen,
    key := blk e.key, din := blk e.din, rkin := blk e.rkin }

/-- The command in the latch, or why it is none (R91, R205). -/
def Latch.command (l : Latch) : Except DecodeError Instr := decodeFields l.op l.arg l.rsv

/-- `[L.addr, L.addr + L.len)`: the buffer of a buffer command (R66). -/
def Latch.buffer (l : Latch) : Region := ⟨l.addr.toNat, l.len.toNat⟩

/-- `[L.kaddr, L.kaddr + L.klen)`: the key bytes (R66). -/
def Latch.keyRegion (l : Latch) : Region := ⟨l.kaddr.toNat, l.klen.toNat⟩

/-- `[L.addr, L.addr + 258)`: the image of STR_SAVE and STR_LOAD (R66). -/
def Latch.image (l : Latch) : Region := ⟨l.addr.toNat, 258⟩

/-- The address lies in the region. -/
def Region.contains (r : Region) (a : Nat) : Bool := decide (r.base ≤ a) && decide (a < r.base + r.size)

/-- The two regions share at least one address. -/
def Region.meets (r t : Region) : Bool :=
  decide (0 < r.size) && decide (0 < t.size) && decide (r.base < t.base + t.size) && decide (t.base < r.base + r.size)

/-- Some region of one list shares an address with some region of the other. -/
def regionsMeet (rs ts : List Region) : Bool := rs.any fun r => ts.any fun t => r.meets t

/-- The part of a command's footprint it may write (R66). -/
def writtenFootprint (i : Instr) (l : Latch) : List Region :=
  match i with
  | .aesEcbEnc => [l.buffer]
  | .aesEcbDec => [l.buffer]
  | .aesCbcEnc => [l.buffer]
  | .aesCbcDec => [l.buffer]
  | .xorChainEnc => [l.buffer]
  | .xorChainDec => [l.buffer]
  | .strXform => [l.buffer]
  | .strSave => [l.image]
  | .chnEnc => [l.buffer]
  | .chnDec => [l.buffer]
  | .aesKeyinit _ => []
  | .aesEncblk => []
  | .aesDecblk => []
  | .aesRkread _ => []
  | .aesRoundEnc => []
  | .aesRoundEnclast => []
  | .aesRoundDec => []
  | .aesRoundDeclast => []
  | .aesInvmix => []
  | .aesKeystep _ => []
  | .strInit => []
  | .strLoad => []

/-- The part of a command's footprint it only reads (R66). -/
def readOnlyFootprint (i : Instr) (l : Latch) : List Region :=
  match i with
  | .strInit => [l.keyRegion]
  | .strLoad => [l.image]
  | .chnEnc => [l.keyRegion]
  | .chnDec => [l.keyRegion]
  | .aesEcbEnc => []
  | .aesEcbDec => []
  | .aesCbcEnc => []
  | .aesCbcDec => []
  | .xorChainEnc => []
  | .xorChainDec => []
  | .strXform => []
  | .strSave => []
  | .aesKeyinit _ => []
  | .aesEncblk => []
  | .aesDecblk => []
  | .aesRkread _ => []
  | .aesRoundEnc => []
  | .aesRoundEnclast => []
  | .aesRoundDec => []
  | .aesRoundDeclast => []
  | .aesInvmix => []
  | .aesKeystep _ => []

/-- The footprint of a command, from the latch (R66). -/
def footprint (i : Instr) (l : Latch) : List Region := writtenFootprint i l ++ readOnlyFootprint i l

/-- The footprint of what is latched; an illegal word is no command and has none (R66, R90). -/
def Latch.footprint (l : Latch) : List Region :=
  match l.command with
  | .ok i => Machine.footprint i l
  | .error _ => []

/-- The written part of the footprint of what is latched (R252). -/
def Latch.writtenFootprint (l : Latch) : List Region :=
  match l.command with
  | .ok i => Machine.writtenFootprint i l
  | .error _ => []

/-- The footprint in flight: that of the latched command while BUSY = 1, else nothing (R74). -/
def Engine.footprintInFlight (e : Engine) : List Region := if e.busy then e.latch.footprint else []

end Sys2Proof.Machine
end

