-- ==== Sys2Proof/Machine/Ops.lean ====
section
/-! DEFINITION. The shared operations: memory, the instance in focus, the checks of 60_exceptions.md R222 one by one, completing a command with or without an error (44_control.md R202, R226), and launching one (R201). -/

namespace Sys2Proof.Machine

/-- The outcome of one step. -/
abbrev Result := Host.Outcome State Fault Refusal

/-! ## Memory (00_scope.md R14) -/

/-- The canonical form: addresses strictly rising, no entry equal to what an unlisted address reads as (log 1). -/
abbrev Memory.wf (m : Memory) : Prop :=
  m.Pairwise (fun c d => c.1 < d.1) ∧ ∀ c ∈ m, c.2 ≠ Config.unlistedByte

/-- Every listed address exists: memory has `2^AW` bytes (R9, R60). -/
abbrev Memory.within (m : Memory) (aw : Nat) : Prop := ∀ c ∈ m, c.1 < 2 ^ aw

/-- `Mem[a]`. -/
def readByte : Memory → Nat → Byte
  | [], _ => Config.unlistedByte
  | (b, v) :: m, a => if a = b then v else readByte m a

/-- The cell before the others, or nothing where it would say what an unlisted address reads as. -/
def putCell (a : Nat) (v : Byte) (m : Memory) : Memory :=
  if v = Config.unlistedByte then m else (a, v) :: m

/-- `Mem[a] <- v`. -/
def writeByte : Memory → Nat → Byte → Memory
  | [], a, v => putCell a v []
  | (b, w) :: m, a, v =>
    if a < b then putCell a v ((b, w) :: m)
    else if a = b then putCell a v m
    else (b, w) :: writeByte m a v

/-- `MemRead(a, n)` (R14). -/
def readBytes (m : Memory) : Nat → Nat → List Byte
  | _, 0 => []
  | a, n + 1 => readByte m a :: readBytes m (a + 1) n

/-- `MemWrite(a, n, v)` (R14), byte 0 first. -/
def writeBytes : Memory → Nat → List Byte → Memory
  | m, _, [] => m
  | m, a, v :: vs => writeBytes (writeByte m a v) (a + 1) vs

/-- `MemRead(a, 16)` as a Block: Block byte b is `Mem[a + b]` (20_memory.md R62). -/
def readBlock (m : Memory) (a : Nat) : Block :=
  ⟨readByte m a, readByte m (a + 1), readByte m (a + 2), readByte m (a + 3),
   readByte m (a + 4), readByte m (a + 5), readByte m (a + 6), readByte m (a + 7),
   readByte m (a + 8), readByte m (a + 9), readByte m (a + 10), readByte m (a + 11),
   readByte m (a + 12), readByte m (a + 13), readByte m (a + 14), readByte m (a + 15)⟩

/-- `MemWrite(a, 16, b)` of a Block (R62). -/
def writeBlock (m : Memory) (a : Nat) (b : Block) : Memory := writeBytes m a b.toBytes

/-! ## Instances (60_exceptions.md R243) -/

/-- All instances in order of their numbers. -/
def State.engines (s : State) : List Engine := s.left.reverse ++ s.eng :: s.right

/-- The number of the instance in focus. -/
def State.number (s : State) : Nat := s.left.length

/-- `N_ENGINES` (00_scope.md R9). -/
def State.nEngines (s : State) : Nat := s.left.length + 1 + s.right.length

/-- The state with instance k in focus, if there is one. Nothing but the focus changes. -/
def State.focus (s : State) (k : Nat) : Option State :=
  match s.engines.drop k with
  | [] => none
  | e :: r => some { s with left := (s.engines.take k).reverse, eng := e, right := r }

/-- The other instances. -/
def State.others (s : State) : List Engine := s.left ++ s.right

/-! ## Effects of commands -/

/-- `DOUT <- B` (R13, R39). -/
def setDout (b : Block) (s : State) : State := { s with eng := { s.eng with dout := unblk b } }

/-- Memory replaced. -/
def setMem (m : Memory) (s : State) : State := { s with mem := m }

/-- P, PI and PJ replaced (R44). -/
def setGen (g : Generator) (s : State) : State := { s with eng := { s.eng with gen := g } }

/-- `STREAM_VALID <- 1` (R31). -/
def setStreamValid (s : State) : State := { s with eng := { s.eng with streamValid := true } }

/-! ## Completing a command -/

/-- A completion with error, the one operation for every code (R202, R220, R226): ERR, ERRCODE and BUSY, nothing else.
The CSE takes no trap and has no trap return: nothing is saved and no control is transferred (R236, R237); the host
acknowledges an error by a STATUS write (`Engine.writeStatus`, R204). -/
def raiseError (c : ErrCode) (s : State) : State := { s with eng := s.eng.flagsAtError c }

/-- A completion without error (R202): DONE and BUSY. -/
def finish (s : State) : State := { s with eng := s.eng.flagsAtFinish }

/-- Check 2: the unit is present (R222, R224). -/
def requireBcu (s : State) : Option ErrCode := if s.eng.hasAes then none else some .unsupported

/-- Check 3: the forward schedule is valid (R222, R225). -/
def requireKey (s : State) : Option ErrCode := if s.eng.keyValid then none else some .noKey

/-- Check 3: the inverse schedule is valid (R222, R225). -/
def requireInvKey (s : State) : Option ErrCode := if s.eng.invValid then none else some .noInvKey

/-- Check 3: the generator is valid (R222, R225). -/
def requireStream (s : State) : Option ErrCode := if s.eng.streamValid then none else some .noStream

/-- Check 4 for STR_INIT: a key of 1 to 256 bytes (R222, R227). -/
def requireStreamKeyLen (s : State) : Option ErrCode :=
  if s.eng.latch.klen.toNat = 0 ∨ 256 < s.eng.latch.klen.toNat then some .badKeyLen else none

/-- Check 4 for the CCU: a key of at least one byte (R222, R227). -/
def requireChainKeyLen (s : State) : Option ErrCode :=
  if s.eng.latch.klen.toNat = 0 then some .badKeyLen else none

/-- Check 5: a buffer of whole Blocks (R222, R228). -/
def requireWholeBlocks (s : State) : Option ErrCode :=
  if s.eng.latch.len.toNat % 16 = 0 then none else some .badLength

/-- Check 6 for one region: it ends at or below `2^AW`, the sum exact (R222, R229, R61). -/
def requireRange (s : State) (r : Region) : Option ErrCode :=
  if r.base + r.size ≤ 2 ^ s.aw then none else some .range

/-- Check 7: the CCU's key region and its nonempty buffer share no byte (R222, R230). -/
def requireDisjoint (s : State) : Option ErrCode :=
  let l := s.eng.latch
  if 0 < l.len.toNat ∧ l.addr.toNat < l.kaddr.toNat + l.klen.toNat ∧ l.kaddr.toNat < l.addr.toNat + l.len.toNat
  then some .overlap else none

/-- Check 1 as a meaning sees it: AES_RKREAD's slot is at most 19. A decoded command always passes (R91, R223; log 20). -/
def requireSlot (slot : Byte) : Option ErrCode := if slotLegal slot then none else some .illegalCmd

/-- The first error of a list of checks, in order (R222). -/
def firstError : List (Option ErrCode) → Option ErrCode
  | [] => none
  | none :: cs => firstError cs
  | some c :: _ => some c

/-- The completion of a command (R202): the checks in order, then its accesses through the port, then its pseudocode,
which ends in `raise Error(c)` or `finish` (00_scope.md R15). `accessed` is every byte the pseudocode reads or writes:
if the platform refuses one of them, the engine is stuck (20_memory.md R71, U12; log 15). -/
def command (s : State) (checks : List (Option ErrCode)) (accessed : List Region)
    (effect : State → Except ErrCode State) : Result :=
  match firstError checks with
  | some c => .next (raiseError c s)
  | none =>
    if regionsMeet accessed s.refusedMem then .fault .engineStuck
    else
      match effect s with
      | .error c => .next (raiseError c s)
      | .ok t => .next (finish t)

/-! ## Launching a command -/

/-- The instance after `Launch(w)` (R201): every operand captured in L, the flags as at a launch. -/
def launchEngine (e : Engine) (w : Word) : Engine := { e with latch := captureLatch e w }.flagsAtLaunch

/-- The footprints in flight at the other instances (R243). -/
def State.otherFootprints (s : State) : List Region := s.others.flatMap Engine.footprintInFlight

/-- Every footprint in flight (R74, R243). -/
def State.footprintsInFlight (s : State) : List Region := s.engines.flatMap Engine.footprintInFlight

/-- `Launch(w)` at the instance in focus (R201). A footprint in memory with read side effects is refused (R69, U13; log 16);
a footprint that overlaps one in flight at another instance is a fault (R243, U17; log 14). Where both hold the spec gives no
order: DESIGN CHOICE, the refusal comes first (log 25). -/
def launch (w : Word) (s : State) : Result :=
  let e := launchEngine s.eng w
  if regionsMeet e.latch.footprint s.deviceMem then .refused .deviceFootprint
  else if regionsMeet e.latch.footprint s.otherFootprints then .fault .footprintOverlap
  else .next { s with eng := e }

/-! ## Reset (70_reset_and_hazards.md R250, R252) -/

/-- Free values for a key schedule (R52, U14). -/
def freeSchedule (d : Nat) : Vector Block 20 :=
  ⟨((List.range 20).map (Config.freeBlock d)).toArray, by simp⟩

/-- Free values for P, PI and PJ (R52, U15). -/
def freeGenerator (d : Nat) : Generator :=
  ⟨⟨((List.range 256).map (Config.freeByte d)).toArray, by simp⟩, Config.freeByte d 256, Config.freeByte d 257⟩

/-- Free values for L (R52, U16). -/
def freeLatch (d : Nat) : Latch :=
  { op := Config.freeByte d 0, arg := Config.freeByte d 1, rsv := (Config.freeWord d).extractLsb' 0 16,
    addr := Config.freeWord (d + 1), len := Config.freeWord (d + 2),
    kaddr := Config.freeWord (d + 3), klen := Config.freeWord (d + 4),
    key := Config.freeBlock d 0, din := Config.freeBlock d 1, rkin := Config.freeBlock d 2 }

/-- n free bytes for the addresses from a on. -/
def freeBytes (d : Nat) (a n : Nat) : List Byte := (List.range n).map fun k => Config.freeByte d (a + k)

/-- Every byte of the region that exists holds a free value (R252, U8). -/
def scrambleRegion (aw d : Nat) (r : Region) (m : Memory) : Memory :=
  writeBytes m r.base (freeBytes d r.base (min r.size (2 ^ aw - r.base)))

/-- Every byte of the regions holds a free value (R252). -/
def scrambleRegions (aw d : Nat) : List Region → Memory → Memory
  | [], m => m
  | r :: rs, m => scrambleRegions aw d rs (scrambleRegion aw d r m)

/-- Memory after a reset of the instance in focus: while BUSY = 1 the written part of its footprint becomes unspecified,
else nothing changes (R252; log 8). -/
def memoryAfterReset (s : State) : Memory :=
  if s.eng.busy then scrambleRegions s.aw s.draws s.eng.latch.writtenFootprint s.mem else s.mem

/-- Reset of the instance in focus (R250, R251, R252): every register at its value of R52, RKS, P, PI, PJ and L free
(log 5), the parameters kept. -/
def resetEngine (s : State) : State :=
  { s with
    eng := Engine.resetWith s.eng.base s.eng.hasAes s.eng.chainFbInit
      (freeSchedule (s.draws + 1)) (freeGenerator (s.draws + 2)) (freeLatch (s.draws + 3))
    mem := memoryAfterReset s
    draws := s.draws + 8 }

end Sys2Proof.Machine
end

