-- ==== Sys2Proof/Machine/HostAccess.lean ====
section
/-! DEFINITION. The register block and the host's four operations (10_state.md R20 to R41; 44_control.md R200, R206; 20_memory.md R65, R74; 30_encoding.md R86, R92). -/

namespace Sys2Proof.Machine

/-- The registers of the block, by name (R20); `reserved n` is offset `0x060 + 4n` (R41). -/
inductive Reg where
  | caps
  | ctrl
  | status
  | cmd
  | addr
  | len
  | kaddr
  | klen
  | key (n : Fin 4)
  | din (n : Fin 4)
  | dout (n : Fin 4)
  | rkin (n : Fin 4)
  | reserved (n : Nat)
  deriving DecidableEq, Repr

/-- The register map in order of offsets, four bytes apart (R20). -/
def registerMap : List Reg :=
  [.caps, .ctrl, .status, .cmd, .addr, .len, .kaddr, .klen,
   .key 0, .key 1, .key 2, .key 3, .din 0, .din 1, .din 2, .din 3,
   .dout 0, .dout 1, .dout 2, .dout 3, .rkin 0, .rkin 1, .rkin 2, .rkin 3]

/-- The register at a 4-byte-aligned offset (R20, R41). -/
def Reg.ofOffset (off : Nat) : Reg := registerMap.getD (off / 4) (.reserved (off / 4 - 24))

/-- `offset(NAME)` (R20, R92). -/
def Reg.offset : Reg → Nat
  | .caps => 0x000
  | .ctrl => 0x004
  | .status => 0x008
  | .cmd => 0x00C
  | .addr => 0x010
  | .len => 0x014
  | .kaddr => 0x018
  | .klen => 0x01C
  | .key n => 0x020 + 4 * n.val
  | .din n => 0x030 + 4 * n.val
  | .dout n => 0x040 + 4 * n.val
  | .rkin n => 0x050 + 4 * n.val
  | .reserved n => 0x060 + 4 * n

/-- `zext_32(v[AW-1:0])` (R33, R35, R200). -/
def maskAddress (aw : Nat) (v : Word) : Word := BitVec.ofNat 32 (v.toNat % 2 ^ aw)

/-- Every write but one to CMD: it stores a value, clears STATUS bits, or is ignored (R200); CMD holds no state (R32). -/
def storeRegister (aw : Nat) (e : Engine) (r : Reg) (v : Word) : Engine :=
  match r with
  | .caps => e
  | .ctrl => e.writeCtrl v
  | .status => e.writeStatus v
  | .cmd => e
  | .addr => { e with addr := maskAddress aw v }
  | .len => { e with len := v }
  | .kaddr => { e with kaddr := maskAddress aw v }
  | .klen => { e with klen := v }
  | .key n => { e with key := e.key.set n v }
  | .din n => { e with din := e.din.set n v }
  | .dout _ => e
  | .rkin n => { e with rkin := e.rkin.set n v }
  | .reserved _ => e

/-- A write to CMD: a launch when BUSY = 0, dropped with OVR when BUSY = 1 (R32, R200, R203). -/
def writeCmd (w : Word) (s : State) : Result :=
  if s.eng.busy then .next { s with eng := s.eng.setOverrun } else launch w s

/-- `HostWrite` of R200 at the instance in focus. -/
def hostWrite (r : Reg) (v : Word) (s : State) : Result :=
  if r = .cmd then writeCmd v s else .next { s with eng := storeRegister s.aw s.eng r v }

/-- The value of a register as R20 to R41 give it. -/
def registerValue (e : Engine) (r : Reg) : Word :=
  match r with
  | .caps => e.capsWord
  | .ctrl => e.ctrlWord
  | .status => e.statusWord
  | .cmd => 0#32
  | .addr => e.addr
  | .len => e.len
  | .kaddr => e.kaddr
  | .klen => e.klen
  | .key n => e.key.get n
  | .din n => e.din.get n
  | .dout n => e.dout.get n
  | .rkin n => e.rkin.get n
  | .reserved _ => 0#32

/-- DOUT0 to DOUT3 (R39). -/
def Reg.isDout : Reg → Bool
  | .dout _ => true
  | .caps => false
  | .ctrl => false
  | .status => false
  | .cmd => false
  | .addr => false
  | .len => false
  | .kaddr => false
  | .klen => false
  | .key _ => false
  | .din _ => false
  | .rkin _ => false
  | .reserved _ => false

/-- A host read of a register (R206): its value, or a free value for DOUT while BUSY = 1 (U7; log 7). No other effect. -/
def hostRead (r : Reg) (s : State) : State :=
  if r.isDout && s.eng.busy then { s with rdata := Config.freeWord s.draws, draws := s.draws + 1 }
  else { s with rdata := registerValue s.eng r }

/-- The bus address lies in the 256-byte register block of the instance (R20, R86). -/
def Engine.ownsAddress (e : Engine) (a : Nat) : Bool := decide (e.base ≤ a) && decide (a < e.base + 256)

/-- The instance whose register block holds the bus address, in focus. -/
def State.focusAddress (s : State) (a : Nat) : Option State :=
  match s.engines.findIdx? fun e => e.ownsAddress a with
  | none => none
  | some k => s.focus k

/-- A register access reaches a register only 32 bits wide and 4-byte aligned (R65, R86, U11). -/
def accessForm (e : Engine) (a width : Nat) : Bool := decide (width = 32) && decide ((a - e.base) % 4 = 0)

/-- A host register write at a bus address (R86, R200). An address in no block is refused before its form is looked at (logs 17, 25). -/
def busWrite (a width : Nat) (v : Word) (s : State) : Result :=
  match s.focusAddress a with
  | none => .refused .noRegisterBlock
  | some t =>
    if accessForm t.eng a width then hostWrite (Reg.ofOffset (a - t.eng.base)) v t else .refused .registerAccessForm

/-- A host register read at a bus address (R86, R206), the refusals in the same order (log 25). -/
def busRead (a width : Nat) (s : State) : Result :=
  match s.focusAddress a with
  | none => .refused .noRegisterBlock
  | some t =>
    if accessForm t.eng a width then .next (hostRead (Reg.ofOffset (a - t.eng.base)) t) else .refused .registerAccessForm

/-- Whether a host memory access may go on: inside memory (R14; log 18), outside every footprint in flight (R74, R239) and outside memory
with read side effects (R69; log 16). Where several fail the spec gives no order: DESIGN CHOICE, this one (log 25). A footprint is in
flight while BUSY = 1 (R74, U10); R256 forbids the access until the host has seen BUSY = 0, and between the completion and
that read the model lets it go on: DESIGN CHOICE (log 26). -/
def memoryAccess (s : State) (r : Region) (next : State) : Result :=
  if 2 ^ s.aw < r.base + r.size then .fault .noSuchAddress
  else if regionsMeet [r] s.footprintsInFlight then .fault .footprintAccess
  else if regionsMeet [r] s.deviceMem then .refused .deviceAccess
  else .next next

/-- `mw a, hex` (R92). -/
def hostMemWrite (a : Nat) (bytes : List Byte) (s : State) : Result :=
  memoryAccess s ⟨a, bytes.length⟩ { s with mem := writeBytes s.mem a bytes }

/-- `mr a, n -> hex` (R92). -/
def hostMemRead (a n : Nat) (s : State) : Result :=
  memoryAccess s ⟨a, n⟩ { s with mdata := readBytes s.mem a n }

end Sys2Proof.Machine
end

