-- ==== Sys2Proof/Machine/Agents.lean ====
section
/-! DEFINITION. Which agent moves and what its step does (00_scope.md R6; 44_control.md R202; 70_reset_and_hazards.md R250, R271, R273), for a given meaning `run` of commands. -/

namespace Sys2Proof.Machine

/-- `Complete` of R202 at the instance in focus: an illegal word completes with ILLEGAL_CMD (R223), a command by its meaning.
When BUSY = 0 the instance has no enabled step and nothing happens. -/
def completion (run : Instr → State → Result) (s : State) : Result :=
  if s.eng.busy then
    match s.eng.latch.command with
    | .error _ => .next (raiseError .illegalCmd s)
    | .ok i => run i s
  else .next s

/-- The completion step of instance k; there may be no such instance. -/
def completeNumber (run : Instr → State → Result) (k : Nat) (s : State) : Result :=
  match s.focus k with
  | none => .next s
  | some t => completion run t

/-- Reset of instance k (R250); there may be no such instance. -/
def resetNumber (k : Nat) (s : State) : State :=
  match s.focus k with
  | none => s
  | some t => resetEngine t

/-- One event. -/
def runEvent (run : Instr → State → Result) (e : Event) (s : State) : Result :=
  match e with
  | .regWrite a width v => busWrite a width v s
  | .regRead a width => busRead a width s
  | .memWrite a bytes => hostMemWrite a bytes s
  | .memRead a n => hostMemRead a n s
  | .complete k => completeNumber run k s
  | .reset k => .next (resetNumber k s)

/-- The lowest-numbered busy instance. -/
def State.firstBusy (s : State) : Option Nat := s.engines.findIdx? Engine.busy

/-- With no event left, the run ends once every busy instance has completed (R271, R273; log 10); then nothing is enabled. -/
def drain (run : Instr → State → Result) (s : State) : Result :=
  match s.firstBusy with
  | none => .next s
  | some k => completeNumber run k s

/-- One step of the whole machine. -/
def agentStep (run : Instr → State → Result) (s : State) : Result :=
  match s.events with
  | [] => drain run s
  | e :: rest => runEvent run e { s with events := rest }

/-- The state in which the instance in focus has just been launched with a word, and takes its completion step next. -/
def armCommand (w : Word) (s : State) : State :=
  { s with eng := launchEngine s.eng w, events := .complete s.number :: s.events }

end Sys2Proof.Machine
end

