-- ==== Sys2Proof/Machine/Cipher.lean ====
section
/-! DEFINITION. The block cipher as functions on Bytes and Blocks: field, S-box, round transforms, rounds, key schedule, block encryption and decryption (40_block_cipher_core.md R100 to R117). -/

namespace Sys2Proof.Machine

/-- Doubling in GF(2^8) (R100): the 9-bit value `2 * a`, reduced by 0x11B when its bit 8 is 1. -/
def xtime (a : Byte) : Byte :=
  let t : BitVec 9 := a.setWidth 9 <<< 1
  (if t.getLsbD 8 then t ^^^ 0x11B#9 else t).setWidth 8

/-- `xtime^i(a)`: xtime applied i times (R100). -/
def xtimes : Nat → Byte → Byte
  | 0, a => a
  | i + 1, a => xtime (xtimes i a)

/-- XOR over i in 0 .. n-1 with `b[i] = 1` of `xtime^i(a)` (R100). -/
def gmulBits (a b : Byte) : Nat → Byte
  | 0 => 0x00#8
  | n + 1 => (if b.getLsbD n then xtimes n a else 0x00#8) ^^^ gmulBits a b n

/-- Multiplication in GF(2^8) (R100). -/
def gmul (a b : Byte) : Byte := gmulBits a b 8

/-- Row hi of the S-box table of R101. -/
def sboxRow : Nat → List Byte
  | 0 => [0x63#8, 0x7c#8, 0x77#8, 0x7b#8, 0xf2#8, 0x6b#8, 0x6f#8, 0xc5#8, 0x30#8, 0x01#8, 0x67#8, 0x2b#8, 0xfe#8, 0xd7#8, 0xab#8, 0x76#8]
  | 1 => [0xca#8, 0x82#8, 0xc9#8, 0x7d#8, 0xfa#8, 0x59#8, 0x47#8, 0xf0#8, 0xad#8, 0xd4#8, 0xa2#8, 0xaf#8, 0x9c#8, 0xa4#8, 0x72#8, 0xc0#8]
  | 2 => [0xb7#8, 0xfd#8, 0x93#8, 0x26#8, 0x36#8, 0x3f#8, 0xf7#8, 0xcc#8, 0x34#8, 0xa5#8, 0xe5#8, 0xf1#8, 0x71#8, 0xd8#8, 0x31#8, 0x15#8]
  | 3 => [0x04#8, 0xc7#8, 0x23#8, 0xc3#8, 0x18#8, 0x96#8, 0x05#8, 0x9a#8, 0x07#8, 0x12#8, 0x80#8, 0xe2#8, 0xeb#8, 0x27#8, 0xb2#8, 0x75#8]
  | 4 => [0x09#8, 0x83#8, 0x2c#8, 0x1a#8, 0x1b#8, 0x6e#8, 0x5a#8, 0xa0#8, 0x52#8, 0x3b#8, 0xd6#8, 0xb3#8, 0x29#8, 0xe3#8, 0x2f#8, 0x84#8]
  | 5 => [0x53#8, 0xd1#8, 0x00#8, 0xed#8, 0x20#8, 0xfc#8, 0xb1#8, 0x5b#8, 0x6a#8, 0xcb#8, 0xbe#8, 0x39#8, 0x4a#8, 0x4c#8, 0x58#8, 0xcf#8]
  | 6 => [0xd0#8, 0xef#8, 0xaa#8, 0xfb#8, 0x43#8, 0x4d#8, 0x33#8, 0x85#8, 0x45#8, 0xf9#8, 0x02#8, 0x7f#8, 0x50#8, 0x3c#8, 0x9f#8, 0xa8#8]
  | 7 => [0x51#8, 0xa3#8, 0x40#8, 0x8f#8, 0x92#8, 0x9d#8, 0x38#8, 0xf5#8, 0xbc#8, 0xb6#8, 0xda#8, 0x21#8, 0x10#8, 0xff#8, 0xf3#8, 0xd2#8]
  | 8 => [0xcd#8, 0x0c#8, 0x13#8, 0xec#8, 0x5f#8, 0x97#8, 0x44#8, 0x17#8, 0xc4#8, 0xa7#8, 0x7e#8, 0x3d#8, 0x64#8, 0x5d#8, 0x19#8, 0x73#8]
  | 9 => [0x60#8, 0x81#8, 0x4f#8, 0xdc#8, 0x22#8, 0x2a#8, 0x90#8, 0x88#8, 0x46#8, 0xee#8, 0xb8#8, 0x14#8, 0xde#8, 0x5e#8, 0x0b#8, 0xdb#8]
  | 10 => [0xe0#8, 0x32#8, 0x3a#8, 0x0a#8, 0x49#8, 0x06#8, 0x24#8, 0x5c#8, 0xc2#8, 0xd3#8, 0xac#8, 0x62#8, 0x91#8, 0x95#8, 0xe4#8, 0x79#8]
  | 11 => [0xe7#8, 0xc8#8, 0x37#8, 0x6d#8, 0x8d#8, 0xd5#8, 0x4e#8, 0xa9#8, 0x6c#8, 0x56#8, 0xf4#8, 0xea#8, 0x65#8, 0x7a#8, 0xae#8, 0x08#8]
  | 12 => [0xba#8, 0x78#8, 0x25#8, 0x2e#8, 0x1c#8, 0xa6#8, 0xb4#8, 0xc6#8, 0xe8#8, 0xdd#8, 0x74#8, 0x1f#8, 0x4b#8, 0xbd#8, 0x8b#8, 0x8a#8]
  | 13 => [0x70#8, 0x3e#8, 0xb5#8, 0x66#8, 0x48#8, 0x03#8, 0xf6#8, 0x0e#8, 0x61#8, 0x35#8, 0x57#8, 0xb9#8, 0x86#8, 0xc1#8, 0x1d#8, 0x9e#8]
  | 14 => [0xe1#8, 0xf8#8, 0x98#8, 0x11#8, 0x69#8, 0xd9#8, 0x8e#8, 0x94#8, 0x9b#8, 0x1e#8, 0x87#8, 0xe9#8, 0xce#8, 0x55#8, 0x28#8, 0xdf#8]
  | 15 => [0x8c#8, 0xa1#8, 0x89#8, 0x0d#8, 0xbf#8, 0xe6#8, 0x42#8, 0x68#8, 0x41#8, 0x99#8, 0x2d#8, 0x0f#8, 0xb0#8, 0x54#8, 0xbb#8, 0x16#8]
  | _ => []

/-- `SBOX[16*hi + lo]` is row hi, column lo (R101). -/
def sbox (a : Byte) : Byte := (sboxRow (a.toNat / 16)).getD (a.toNat % 16) 0x00#8

/-- Row hi of the inverse S-box table of R103. -/
def invSboxRow : Nat → List Byte
  | 0 => [0x52#8, 0x09#8, 0x6a#8, 0xd5#8, 0x30#8, 0x36#8, 0xa5#8, 0x38#8, 0xbf#8, 0x40#8, 0xa3#8, 0x9e#8, 0x81#8, 0xf3#8, 0xd7#8, 0xfb#8]
  | 1 => [0x7c#8, 0xe3#8, 0x39#8, 0x82#8, 0x9b#8, 0x2f#8, 0xff#8, 0x87#8, 0x34#8, 0x8e#8, 0x43#8, 0x44#8, 0xc4#8, 0xde#8, 0xe9#8, 0xcb#8]
  | 2 => [0x54#8, 0x7b#8, 0x94#8, 0x32#8, 0xa6#8, 0xc2#8, 0x23#8, 0x3d#8, 0xee#8, 0x4c#8, 0x95#8, 0x0b#8, 0x42#8, 0xfa#8, 0xc3#8, 0x4e#8]
  | 3 => [0x08#8, 0x2e#8, 0xa1#8, 0x66#8, 0x28#8, 0xd9#8, 0x24#8, 0xb2#8, 0x76#8, 0x5b#8, 0xa2#8, 0x49#8, 0x6d#8, 0x8b#8, 0xd1#8, 0x25#8]
  | 4 => [0x72#8, 0xf8#8, 0xf6#8, 0x64#8, 0x86#8, 0x68#8, 0x98#8, 0x16#8, 0xd4#8, 0xa4#8, 0x5c#8, 0xcc#8, 0x5d#8, 0x65#8, 0xb6#8, 0x92#8]
  | 5 => [0x6c#8, 0x70#8, 0x48#8, 0x50#8, 0xfd#8, 0xed#8, 0xb9#8, 0xda#8, 0x5e#8, 0x15#8, 0x46#8, 0x57#8, 0xa7#8, 0x8d#8, 0x9d#8, 0x84#8]
  | 6 => [0x90#8, 0xd8#8, 0xab#8, 0x00#8, 0x8c#8, 0xbc#8, 0xd3#8, 0x0a#8, 0xf7#8, 0xe4#8, 0x58#8, 0x05#8, 0xb8#8, 0xb3#8, 0x45#8, 0x06#8]
  | 7 => [0xd0#8, 0x2c#8, 0x1e#8, 0x8f#8, 0xca#8, 0x3f#8, 0x0f#8, 0x02#8, 0xc1#8, 0xaf#8, 0xbd#8, 0x03#8, 0x01#8, 0x13#8, 0x8a#8, 0x6b#8]
  | 8 => [0x3a#8, 0x91#8, 0x11#8, 0x41#8, 0x4f#8, 0x67#8, 0xdc#8, 0xea#8, 0x97#8, 0xf2#8, 0xcf#8, 0xce#8, 0xf0#8, 0xb4#8, 0xe6#8, 0x73#8]
  | 9 => [0x96#8, 0xac#8, 0x74#8, 0x22#8, 0xe7#8, 0xad#8, 0x35#8, 0x85#8, 0xe2#8, 0xf9#8, 0x37#8, 0xe8#8, 0x1c#8, 0x75#8, 0xdf#8, 0x6e#8]
  | 10 => [0x47#8, 0xf1#8, 0x1a#8, 0x71#8, 0x1d#8, 0x29#8, 0xc5#8, 0x89#8, 0x6f#8, 0xb7#8, 0x62#8, 0x0e#8, 0xaa#8, 0x18#8, 0xbe#8, 0x1b#8]
  | 11 => [0xfc#8, 0x56#8, 0x3e#8, 0x4b#8, 0xc6#8, 0xd2#8, 0x79#8, 0x20#8, 0x9a#8, 0xdb#8, 0xc0#8, 0xfe#8, 0x78#8, 0xcd#8, 0x5a#8, 0xf4#8]
  | 12 => [0x1f#8, 0xdd#8, 0xa8#8, 0x33#8, 0x88#8, 0x07#8, 0xc7#8, 0x31#8, 0xb1#8, 0x12#8, 0x10#8, 0x59#8, 0x27#8, 0x80#8, 0xec#8, 0x5f#8]
  | 13 => [0x60#8, 0x51#8, 0x7f#8, 0xa9#8, 0x19#8, 0xb5#8, 0x4a#8, 0x0d#8, 0x2d#8, 0xe5#8, 0x7a#8, 0x9f#8, 0x93#8, 0xc9#8, 0x9c#8, 0xef#8]
  | 14 => [0xa0#8, 0xe0#8, 0x3b#8, 0x4d#8, 0xae#8, 0x2a#8, 0xf5#8, 0xb0#8, 0xc8#8, 0xeb#8, 0xbb#8, 0x3c#8, 0x83#8, 0x53#8, 0x99#8, 0x61#8]
  | 15 => [0x17#8, 0x2b#8, 0x04#8, 0x7e#8, 0xba#8, 0x77#8, 0xd6#8, 0x26#8, 0xe1#8, 0x69#8, 0x14#8, 0x63#8, 0x55#8, 0x21#8, 0x0c#8, 0x7d#8]
  | _ => []

/-- `INV_SBOX` (R103). -/
def invSbox (a : Byte) : Byte := (invSboxRow (a.toNat / 16)).getD (a.toNat % 16) 0x00#8

/-- `SubBytes` (R105). -/
def subBytes (b : Block) : Block := Block.mapBytes sbox b

/-- `InvSubBytes` (R105). -/
def invSubBytes (b : Block) : Block := Block.mapBytes invSbox b

/-- `ShiftRows`: row r rotates left by r positions (R106). -/
def shiftRows (b : Block) : Block :=
  ⟨b.b0, b.b5, b.b10, b.b15, b.b4, b.b9, b.b14, b.b3, b.b8, b.b13, b.b2, b.b7, b.b12, b.b1, b.b6, b.b11⟩

/-- `InvShiftRows`: row r rotates right by r positions (R107). -/
def invShiftRows (b : Block) : Block :=
  ⟨b.b0, b.b13, b.b10, b.b7, b.b4, b.b1, b.b14, b.b11, b.b8, b.b5, b.b2, b.b15, b.b12, b.b9, b.b6, b.b3⟩

/-- The transform of one column in `MixColumns` (R108). -/
def mixColumn (a : Column) : Column :=
  ⟨gmul a.r0 0x02#8 ^^^ gmul a.r1 0x03#8 ^^^ a.r2 ^^^ a.r3,
   a.r0 ^^^ gmul a.r1 0x02#8 ^^^ gmul a.r2 0x03#8 ^^^ a.r3,
   a.r0 ^^^ a.r1 ^^^ gmul a.r2 0x02#8 ^^^ gmul a.r3 0x03#8,
   gmul a.r0 0x03#8 ^^^ a.r1 ^^^ a.r2 ^^^ gmul a.r3 0x02#8⟩

/-- `MixColumns` (R108). -/
def mixColumns (b : Block) : Block := Block.mapColumns mixColumn b

/-- The transform of one column in `InvMixColumns` (R109). -/
def invMixColumn (a : Column) : Column :=
  ⟨gmul a.r0 0x0e#8 ^^^ gmul a.r1 0x0b#8 ^^^ gmul a.r2 0x0d#8 ^^^ gmul a.r3 0x09#8,
   gmul a.r0 0x09#8 ^^^ gmul a.r1 0x0e#8 ^^^ gmul a.r2 0x0b#8 ^^^ gmul a.r3 0x0d#8,
   gmul a.r0 0x0d#8 ^^^ gmul a.r1 0x09#8 ^^^ gmul a.r2 0x0e#8 ^^^ gmul a.r3 0x0b#8,
   gmul a.r0 0x0b#8 ^^^ gmul a.r1 0x0d#8 ^^^ gmul a.r2 0x09#8 ^^^ gmul a.r3 0x0e#8⟩

/-- `InvMixColumns` (R109). -/
def invMixColumns (b : Block) : Block := Block.mapColumns invMixColumn b

/-- `EncRound(s, k)` (R110). -/
def encRound (s k : Block) : Block := Block.xor (mixColumns (shiftRows (subBytes s))) k

/-- `EncLast(s, k)` (R110). -/
def encLast (s k : Block) : Block := Block.xor (shiftRows (subBytes s)) k

/-- `DecRound(s, k)` (R111). -/
def decRound (s k : Block) : Block := Block.xor (invMixColumns (invSubBytes (invShiftRows s))) k

/-- `DecLast(s, k)` (R111). -/
def decLast (s k : Block) : Block := Block.xor (invSubBytes (invShiftRows s)) k

/-- The round constants: `RC[1] = 0x01`, `RC[i+1] = xtime(RC[i])` (R112). `RC[0]` is used by no rule. -/
def roundConstant : Nat → Byte
  | 0 => 0x00#8
  | 1 => 0x01#8
  | i + 2 => xtime (roundConstant (i + 1))

/-- `NextRoundKey(p, rc)` (R113): `t` is the rotated and substituted last word with the round constant in byte 0, then the cascade. -/
def nextRoundKey (p : Block) (rc : Byte) : Block :=
  let t : Column := ⟨sbox p.b13 ^^^ rc, sbox p.b14, sbox p.b15, sbox p.b12⟩
  let n0 := Column.xor (Block.col0 p) t
  let n1 := Column.xor (Block.col1 p) n0
  let n2 := Column.xor (Block.col2 p) n1
  let n3 := Column.xor (Block.col3 p) n2
  Block.ofColumns n0 n1 n2 n3

/-- `RK[r]` of `ExpandKey(K)` (R114). -/
def roundKey (k : Block) : Nat → Block
  | 0 => k
  | r + 1 => nextRoundKey (roundKey k r) (roundConstant (r + 1))

/-- `IK[m]` of `InverseKeys(ExpandKey(K))`: `InvMixColumns(RK[9 - m])` (R115). -/
def inverseKey (k : Block) (m : Nat) : Block := invMixColumns (roundKey k (9 - m))

/-- The state of `EncryptBlock` after `r` of its rounds (R116). -/
def encRounds (b : Block) (rk : Nat → Block) : Nat → Block
  | 0 => Block.xor b (rk 0)
  | r + 1 => encRound (encRounds b rk r) (rk (r + 1))

/-- `EncryptBlock(B, RK)` (R116). -/
def encryptBlock (b : Block) (rk : Nat → Block) : Block := encLast (encRounds b rk 9) (rk 10)

/-- The state of `DecryptBlock` after `m` of its middle rounds (R117). -/
def decRounds (b : Block) (rk ik : Nat → Block) : Nat → Block
  | 0 => Block.xor b (rk 10)
  | m + 1 => decRound (decRounds b rk ik m) (ik m)

/-- `DecryptBlock(B, RK, IK)` (R117). -/
def decryptBlock (b : Block) (rk ik : Nat → Block) : Block := decLast (decRounds b rk ik 9) (rk 0)

end Sys2Proof.Machine
end

