-- ==== Sys2Proof/Machine/BlockCore.lean ====
section
/-! DEFINITION. The key schedule and the round primitives as commands (40_block_cipher_core.md R119 to R127). -/

namespace Sys2Proof.Machine

/-- The key schedule after AES_KEYINIT (R119, R42): slots 0 to 10 the forward keys of K; slots 11 to 19 the inverse keys when
DEC = 1, and unspecified when DEC = 0 (R43; a free value for each, log 6). -/
def keySchedule (k : Block) (dec : Bool) (d : Nat) : Vector Block 20 :=
  let inv (m : Nat) : Block := if dec then inverseKey k m else Config.freeBlock d (11 + m)
  #v[roundKey k 0, roundKey k 1, roundKey k 2, roundKey k 3, roundKey k 4, roundKey k 5, roundKey k 6, roundKey k 7,
     roundKey k 8, roundKey k 9, roundKey k 10,
     inv 0, inv 1, inv 2, inv 3, inv 4, inv 5, inv 6, inv 7, inv 8]

/-- The draws AES_KEYINIT makes: one when slots 11 to 19 become unspecified. -/
def keyinitDraws (dec : Bool) : Nat := if dec then 0 else 1

/-- RKS, KEY_VALID and INV_VALID as AES_KEYINIT leaves them (R119). -/
def loadKey (dec : Bool) (s : State) : State :=
  { s with
    eng := { s.eng with rks := keySchedule s.eng.latch.key dec s.draws, keyValid := true, invValid := dec }
    draws := s.draws + keyinitDraws dec }

/-- A command of the round-primitive form: DOUT from the latched operands, no key schedule, no memory (R121 to R126). -/
def primitive (s : State) (f : Latch → Block) : Result :=
  command s [requireBcu s] [] fun t => .ok (setDout (f t.eng.latch) t)

/-- AES_KEYINIT (R119). -/
def execAesKeyinit (dec : Bool) (s : State) : Result :=
  command s [requireBcu s] [] fun t => .ok (loadKey dec t)

/-- Slots 11 to 19 need INV_VALID (R120, R222). -/
def requireSlotValid (slot : Byte) (s : State) : Option ErrCode :=
  if 11 ≤ slot.toNat then requireInvKey s else none

/-- AES_RKREAD (R120). -/
def execAesRkread (slot : Byte) (s : State) : Result :=
  command s [requireSlot slot, requireBcu s, requireKey s, requireSlotValid slot s] []
    fun t => .ok (setDout (t.eng.slot slot.toNat) t)

/-- AES_ROUND_ENC (R121). -/
def execAesRoundEnc (s : State) : Result := primitive s fun l => encRound l.din l.rkin

/-- AES_ROUND_ENCLAST (R122). -/
def execAesRoundEnclast (s : State) : Result := primitive s fun l => encLast l.din l.rkin

/-- AES_ROUND_DEC (R123). -/
def execAesRoundDec (s : State) : Result := primitive s fun l => decRound l.din l.rkin

/-- AES_ROUND_DECLAST (R124). -/
def execAesRoundDeclast (s : State) : Result := primitive s fun l => decLast l.din l.rkin

/-- AES_INVMIX (R125). -/
def execAesInvmix (s : State) : Result := primitive s fun l => invMixColumns l.din

/-- AES_KEYSTEP (R126). -/
def execAesKeystep (rc : Byte) (s : State) : Result := primitive s fun l => nextRoundKey l.din rc

end Sys2Proof.Machine
end

