-- ==== Sys2Proof/Machine/BlockModes.lean ====
section
/-! DEFINITION. Single-block encryption and decryption, ECB, CBC and the XOR chain (41_block_cipher_modes.md R140 to R153). -/

namespace Sys2Proof.Machine

/-- `EncryptBlock(b, RK)` with the forward schedule in RKS (R116, R141). -/
def Engine.encrypt (e : Engine) (b : Block) : Block := encryptBlock b e.fwdKey

/-- `DecryptBlock(b, RK, IK)` with the schedules in RKS (R117, R142). -/
def Engine.decrypt (e : Engine) (b : Block) : Block := decryptBlock b e.fwdKey e.invKey

/-- The loop of every buffer command (R140): n Blocks from address a on, in order, each read before it is written (R67).
`f prev x` is the Block written over the Block x read, and the chain value for the next Block. -/
def blockLoop (f : Block → Block → Block × Block) : Nat → Nat → Block → Memory → Memory
  | 0, _, _, m => m
  | n + 1, a, prev, m =>
    let r := f prev (readBlock m a)
    blockLoop f n (a + 16) r.2 (writeBlock m a r.1)

/-- One Block of AES_ECB_ENC (R143). -/
def ecbEncBlock (e : Engine) (prev x : Block) : Block × Block := (e.encrypt x, prev)

/-- One Block of AES_ECB_DEC (R144). -/
def ecbDecBlock (e : Engine) (prev x : Block) : Block × Block := (e.decrypt x, prev)

/-- One Block of AES_CBC_ENC (R145). -/
def cbcEncBlock (e : Engine) (prev x : Block) : Block × Block :=
  let c := e.encrypt (x.xor prev)
  (c, c)

/-- One Block of AES_CBC_DEC (R146): the chain value is the Block read. -/
def cbcDecBlock (e : Engine) (prev x : Block) : Block × Block := ((e.decrypt x).xor prev, x)

/-- One Block of XOR_CHAIN_ENC (R147). -/
def xorEncBlock (prev x : Block) : Block × Block :=
  let c := x.xor prev
  (c, c)

/-- One Block of XOR_CHAIN_DEC (R148): the chain value is the Block read. -/
def xorDecBlock (prev x : Block) : Block × Block := (x.xor prev, x)

/-- Memory after a buffer command over the latched buffer: `L.len div 16` Blocks, the chain value zero at the start (R140, R153). -/
def bufferResult (f : Block → Block → Block × Block) (s : State) : Memory :=
  blockLoop f (s.eng.latch.len.toNat / 16) s.eng.latch.addr.toNat Block.zero s.mem

/-- A buffer command: its valid-flag checks, then whole Blocks, then range, then the loop (R140, R222). -/
def bufferCommand (s : State) (flags : List (Option ErrCode)) (f : Block → Block → Block × Block) : Result :=
  command s (requireBcu s :: flags ++ [requireWholeBlocks s, requireRange s s.eng.latch.buffer]) [s.eng.latch.buffer]
    fun t => .ok (setMem (bufferResult f t) t)

/-- AES_ENCBLK (R141). -/
def execAesEncblk (s : State) : Result :=
  command s [requireBcu s, requireKey s] [] fun t => .ok (setDout (t.eng.encrypt t.eng.latch.din) t)

/-- AES_DECBLK (R142). -/
def execAesDecblk (s : State) : Result :=
  command s [requireBcu s, requireKey s, requireInvKey s] [] fun t => .ok (setDout (t.eng.decrypt t.eng.latch.din) t)

/-- AES_ECB_ENC (R143). -/
def execAesEcbEnc (s : State) : Result := bufferCommand s [requireKey s] (ecbEncBlock s.eng)

/-- AES_ECB_DEC (R144). -/
def execAesEcbDec (s : State) : Result := bufferCommand s [requireKey s, requireInvKey s] (ecbDecBlock s.eng)

/-- AES_CBC_ENC (R145). -/
def execAesCbcEnc (s : State) : Result := bufferCommand s [requireKey s] (cbcEncBlock s.eng)

/-- AES_CBC_DEC (R146). -/
def execAesCbcDec (s : State) : Result := bufferCommand s [requireKey s, requireInvKey s] (cbcDecBlock s.eng)

/-- XOR_CHAIN_ENC (R147): no key. -/
def execXorChainEnc (s : State) : Result := bufferCommand s [] xorEncBlock

/-- XOR_CHAIN_DEC (R148): no key; the re-derived inverse (90_conflicts.md C5). -/
def execXorChainDec (s : State) : Result := bufferCommand s [] xorDecBlock

end Sys2Proof.Machine
end

