-- ==== Sys2Proof/Machine/Chain.lean ====
section
/-! DEFINITION. The chain cipher unit's commands (43_chain_cipher.md R190 to R195). -/

namespace Sys2Proof.Machine

/-- The loop of the CCU commands (R191, R192) with `k` bytes left, at index n: the key byte is `Mem[kaddr + (n mod klen)]`,
and `next x y` is the feedback after reading x and writing y. -/
def chainLoop (next : Byte → Byte → Byte) (addr kaddr klen : Nat) : Nat → Nat → Byte → Memory → Memory
  | 0, _, _, m => m
  | k + 1, n, fb, m =>
    let x := readByte m (addr + n)
    let y := x ^^^ readByte m (kaddr + n % klen) ^^^ fb
    chainLoop next addr kaddr klen k (n + 1) (next x y) (writeByte m (addr + n) y)

/-- CHN_ENC feeds back the byte written, the ciphertext byte (R191). -/
def feedbackWritten (_read written : Byte) : Byte := written

/-- CHN_DEC feeds back the byte read, the ciphertext byte (R192). -/
def feedbackRead (read _written : Byte) : Byte := read

/-- Memory after a CCU command: all `L.len` bytes from index 0, the feedback `CHAIN_FB_INIT` at the start (R191, R192, R195). -/
def chainResult (next : Byte → Byte → Byte) (s : State) : Memory :=
  let l := s.eng.latch
  chainLoop next l.addr.toNat l.kaddr.toNat l.klen.toNat l.len.toNat 0 s.eng.chainFbInit s.mem

/-- The key bytes a CCU command reads: `kaddr + (n mod klen)` for n below `L.len` (R191: only the first `L.len` when KLEN is larger). -/
def chainKeyAccessed (l : Latch) : Region := ⟨l.kaddr.toNat, min l.klen.toNat l.len.toNat⟩

/-- A CCU command: key length, both ranges, overlap, then the loop (R190, R222). -/
def chainCommand (s : State) (next : Byte → Byte → Byte) : Result :=
  command s
    [requireChainKeyLen s, requireRange s s.eng.latch.buffer, requireRange s s.eng.latch.keyRegion, requireDisjoint s]
    [s.eng.latch.buffer, chainKeyAccessed s.eng.latch]
    fun t => .ok (setMem (chainResult next t) t)

/-- CHN_ENC (R191). -/
def execChnEnc (s : State) : Result := chainCommand s feedbackWritten

/-- CHN_DEC (R192). -/
def execChnDec (s : State) : Result := chainCommand s feedbackRead

end Sys2Proof.Machine
end

