-- ==== Sys2Proof/Machine/Keystream.lean ====
section
/-! DEFINITION. The permutation-table keystream generator as functions (42_stream_cipher.md R171, R172) and the permutation check (R176). -/

namespace Sys2Proof.Machine

/-- `P[i]`, the index a Byte (R44). -/
def permGet (p : Vector Byte 256) (i : Byte) : Byte := p[i.toNat]'i.isLt

/-- `P[i] <- v`. -/
def permSet (p : Vector Byte 256) (i v : Byte) : Vector Byte 256 := p.set i.toNat v i.isLt

/-- `swap P[i], P[j]` (R171, R172). -/
def permSwap (p : Vector Byte 256) (i j : Byte) : Vector Byte 256 :=
  permSet (permSet p i (permGet p j)) j (permGet p i)

/-- The identity permutation `P[i] = i` (R171). -/
def identityPerm : Vector Byte 256 :=
  ⟨((List.range 256).map (BitVec.ofNat 8)).toArray, by simp⟩

/-- The swapping loop of `KSA` (R171) with `n` iterations left, at index `i`, accumulator `j`. -/
def ksaLoop (key : List Byte) : Nat → Nat → Byte → Vector Byte 256 → Vector Byte 256
  | 0, _, _, p => p
  | n + 1, i, j, p =>
    let j' := j + permGet p (BitVec.ofNat 8 i) + key.getD (i % key.length) 0x00#8
    ksaLoop key n (i + 1) j' (permSwap p (BitVec.ofNat 8 i) j')

/-- `KSA(key)` (R171): from the identity with `j = 0`, index i in 0 .. 255; the indices returned are 0. -/
def ksa (key : List Byte) : Generator := ⟨ksaLoop key 256 0 0x00#8 identityPerm, 0x00#8, 0x00#8⟩

/-- The generator after one `NextKey` (R172). -/
def advance (g : Generator) : Generator :=
  let i := g.pi + 1#8
  let j := g.pj + permGet g.p i
  ⟨permSwap g.p i j, i, j⟩

/-- The Byte that `NextKey` returns, read after the swap (R172). -/
def nextKey (g : Generator) : Byte :=
  let g' := advance g
  permGet g'.p (permGet g'.p g'.pi + permGet g'.p g'.pj)

/-- The generator after n calls of `NextKey`. -/
def advanceN : Nat → Generator → Generator
  | 0, g => g
  | n + 1, g => advanceN n (advance g)

/-- `P[0] || ... || P[255] || PI || PJ`, the 258-byte image (R175). -/
def generatorImage (g : Generator) : List Byte := g.p.toList ++ [g.pi, g.pj]

/-- The first 256 bytes are a permutation of 0..255: every value occurs exactly once (R45, R176). -/
def isPermutation (l : List Byte) : Bool :=
  (List.range 256).all fun v => l.count (BitVec.ofNat 8 v) == 1

/-- The table whose entry k is byte k of a sequence (R176). -/
def permOfBytes (l : List Byte) : Vector Byte 256 :=
  ⟨((List.range 256).map fun k => l.getD k 0x00#8).toArray, by simp⟩

/-- `P[k] <- img[k]; PI <- img[256]; PJ <- img[257]` (R176). -/
def generatorOfImage (img : List Byte) : Generator :=
  ⟨permOfBytes img, img.getD 256 0x00#8, img.getD 257 0x00#8⟩

end Sys2Proof.Machine
end

