-- ==== Sys2Proof/Machine/Stream.lean ====
section
/-! DEFINITION. The stream cipher unit's commands (42_stream_cipher.md R173 to R176). -/

namespace Sys2Proof.Machine

/-- The loop of STR_XFORM (R174): n bytes from address a on, each XORed with the next keystream byte. -/
def xformLoop : Nat → Nat → Generator → Memory → Memory
  | 0, _, _, m => m
  | n + 1, a, g, m => xformLoop n (a + 1) (advance g) (writeByte m a (readByte m a ^^^ nextKey g))

/-- The state after the loop of STR_XFORM: the buffer, and P, PI, PJ as the last NextKey left them (R174). -/
def xformEffect (s : State) : State :=
  let l := s.eng.latch
  setGen (advanceN l.len.toNat s.eng.gen) (setMem (xformLoop l.len.toNat l.addr.toNat s.eng.gen s.mem) s)

/-- The state after keying the generator with the latched key bytes (R173). -/
def strInitEffect (s : State) : State :=
  let l := s.eng.latch
  setStreamValid (setGen (ksa (readBytes s.mem l.kaddr.toNat l.klen.toNat)) s)

/-- The pseudocode of STR_LOAD (R176): BAD_STATE unless the image holds a permutation, else the generator it holds. -/
def strLoadEffect (s : State) : Except ErrCode State :=
  let img := readBytes s.mem s.eng.latch.addr.toNat 258
  if isPermutation (img.take 256) then .ok (setStreamValid (setGen (generatorOfImage img) s)) else .error .badState

/-- STR_INIT (R173). -/
def execStrInit (s : State) : Result :=
  command s [requireStreamKeyLen s, requireRange s s.eng.latch.keyRegion] [s.eng.latch.keyRegion]
    fun t => .ok (strInitEffect t)

/-- STR_XFORM (R174). -/
def execStrXform (s : State) : Result :=
  command s [requireStream s, requireRange s s.eng.latch.buffer] [s.eng.latch.buffer] fun t => .ok (xformEffect t)

/-- STR_SAVE (R175). -/
def execStrSave (s : State) : Result :=
  command s [requireStream s, requireRange s s.eng.latch.image] [s.eng.latch.image]
    fun t => .ok (setMem (writeBytes t.mem t.eng.latch.addr.toNat (generatorImage t.eng.gen)) t)

/-- STR_LOAD (R176); the check of the image reads memory (R231). -/
def execStrLoad (s : State) : Result :=
  command s [requireRange s s.eng.latch.image] [s.eng.latch.image] strLoadEffect

end Sys2Proof.Machine
end

