-- ==== Sys2Proof/Machine/Dispatch.lean ====
section
/-! DEFINITION. The dispatch of 44_control.md R205: one meaning for each command. -/

namespace Sys2Proof.Machine

def exec (i : Instr) (s : State) : Host.Outcome State Fault Refusal :=
  match i with
  | .aesKeyinit dec => Sys2Proof.Machine.execAesKeyinit dec s
  | .aesEncblk => Sys2Proof.Machine.execAesEncblk s
  | .aesDecblk => Sys2Proof.Machine.execAesDecblk s
  | .aesEcbEnc => Sys2Proof.Machine.execAesEcbEnc s
  | .aesEcbDec => Sys2Proof.Machine.execAesEcbDec s
  | .aesCbcEnc => Sys2Proof.Machine.execAesCbcEnc s
  | .aesCbcDec => Sys2Proof.Machine.execAesCbcDec s
  | .xorChainEnc => Sys2Proof.Machine.execXorChainEnc s
  | .xorChainDec => Sys2Proof.Machine.execXorChainDec s
  | .aesRkread slot => Sys2Proof.Machine.execAesRkread slot s
  | .aesRoundEnc => Sys2Proof.Machine.execAesRoundEnc s
  | .aesRoundEnclast => Sys2Proof.Machine.execAesRoundEnclast s
  | .aesRoundDec => Sys2Proof.Machine.execAesRoundDec s
  | .aesRoundDeclast => Sys2Proof.Machine.execAesRoundDeclast s
  | .aesInvmix => Sys2Proof.Machine.execAesInvmix s
  | .aesKeystep rc => Sys2Proof.Machine.execAesKeystep rc s
  | .strInit => Sys2Proof.Machine.execStrInit s
  | .strXform => Sys2Proof.Machine.execStrXform s
  | .strSave => Sys2Proof.Machine.execStrSave s
  | .strLoad => Sys2Proof.Machine.execStrLoad s
  | .chnEnc => Sys2Proof.Machine.execChnEnc s
  | .chnDec => Sys2Proof.Machine.execChnDec s

end Sys2Proof.Machine
end

