-- ==== Sys2Proof/Machine/Step.lean ====
section
/-! DEFINITION. One step of the machine, and how a command word is placed where the next step runs it. -/

namespace Sys2Proof.Machine

/-- One step: the next event's agent moves; with no event left a busy instance completes (00_scope.md R6, 44_control.md R202). -/
def step (s : State) : Host.Outcome State Fault Refusal := agentStep exec s

/-- The command word launched at the instance in focus, its completion the very next step (log 11). A command is one 32-bit word (30_encoding.md R85). -/
def State.withFetchWord (s : State) (nbits w : Nat) : State := armCommand (BitVec.ofNat 32 (w % 2 ^ nbits)) s

end Sys2Proof.Machine
end

