-- ==== Sys2Proof/Machine/HostNotation.lean ====
section
/-! DEFINITION. The host's notation: the statements of 30_encoding.md R92 as events, and the pseudo-instructions of R93 as lists of them. -/

namespace Sys2Proof.Machine

/-- `wr NAME, v` at the instance whose block is at `base` (R92). -/
def wr (base : Nat) (r : Reg) (v : Word) : Event := .regWrite (base + r.offset) 32 v

/-- `rd NAME` (R92); the value read is then in `rdata`. -/
def rd (base : Nat) (r : Reg) : Event := .regRead (base + r.offset) 32

/-- `mw a, hex` (R92). -/
def mw (a : Nat) (bytes : List Byte) : Event := .memWrite a bytes

/-- `mr a, n` (R92); the bytes read are then in `mdata`. -/
def mr (a n : Nat) : Event := .memRead a n

/-- `cmd MNEMONIC[, a]` (R93). -/
def cmd (base : Nat) (i : Instr) : Event := wr base .cmd (encode i)

/-- One way `wait` (R93) can go: `polls` reads of STATUS that find BUSY = 1, the completion of instance k, and the read that finds BUSY = 0. -/
def wait (base k polls : Nat) : List Event :=
  List.replicate polls (rd base .status) ++ [.complete k, rd base .status]

/-- `run MNEMONIC[, a]` (R93). -/
def run (base k polls : Nat) (i : Instr) : List Event := cmd base i :: wait base k polls

/-- `wr128 G, hex` (R93), for the group G of four registers. -/
def wr128 (base : Nat) (group : Fin 4 → Reg) (b : Block) : List Event :=
  [wr base (group 0) (unblk b).w0, wr base (group 1) (unblk b).w1,
   wr base (group 2) (unblk b).w2, wr base (group 3) (unblk b).w3]

/-- `rd128 DOUT` (R93). -/
def rd128 (base : Nat) : List Event :=
  [rd base (.dout 0), rd base (.dout 1), rd base (.dout 2), rd base (.dout 3)]

/-- `clr` (R93): clears DONE, ERR, ERRCODE and OVR. -/
def clr (base : Nat) : Event := wr base .status 0x0000000E#32

end Sys2Proof.Machine
end

