-- ==== Sys2Proof/Machine/Check.lean ====
section
/-! DEFINITION. The check procedure of 60_exceptions.md R222 written as the spec writes it, one function of the latch: what statements compare the meanings with. No meaning calls it. -/

namespace Sys2Proof.Machine

/-- "c is a BCU command": OP 0x10 to 0x19 and 0x20 to 0x25 (R127, R224). -/
def Instr.isBcu (c : Instr) : Bool :=
  (decide (0x10 ≤ c.opcode.toNat) && decide (c.opcode.toNat ≤ 0x19)) ||
    (decide (0x20 ≤ c.opcode.toNat) && decide (c.opcode.toNat ≤ 0x25))

/-- Check 3: the commands that read the forward schedule (R222). -/
def Instr.readsForwardKeys (c : Instr) : Bool :=
  c.opcode ∈ [0x19#8, 0x11#8, 0x12#8, 0x13#8, 0x14#8, 0x15#8, 0x16#8]

/-- Check 3: the commands that read the inverse schedule (R222); `arg` is L.arg. -/
def Instr.readsInverseKeys (c : Instr) (arg : Byte) : Bool :=
  c.opcode ∈ [0x12#8, 0x14#8, 0x16#8] || (c.opcode == 0x19#8 && decide (11 ≤ arg.toNat))

/-- Check 3: the commands that read the generator (R222). -/
def Instr.readsStream (c : Instr) : Bool := c.opcode ∈ [0x31#8, 0x32#8]

/-- Check 5: the six block buffer commands (R222, R228). -/
def Instr.isBlockBuffer (c : Instr) : Bool :=
  c.opcode ∈ [0x13#8, 0x14#8, 0x15#8, 0x16#8, 0x17#8, 0x18#8]

/-- CHN_ENC and CHN_DEC. -/
def Instr.isChain (c : Instr) : Bool := c.opcode ∈ [0x40#8, 0x41#8]

/-- `Check(L)` of R222 from check 2 on, for the decoded command c. -/
def checkDecoded (s : State) (c : Instr) : ErrCode :=
  let e := s.eng
  let l := e.latch
  let klen := l.klen.toNat
  let len := l.len.toNat
  if Instr.isBcu c && !e.hasAes then .unsupported
  else if Instr.readsForwardKeys c && !e.keyValid then .noKey
  else if Instr.readsInverseKeys c l.arg && !e.invValid then .noInvKey
  else if Instr.readsStream c && !e.streamValid then .noStream
  else if c.opcode = 0x30#8 ∧ (klen = 0 ∨ 256 < klen) then .badKeyLen
  else if Instr.isChain c ∧ klen = 0 then .badKeyLen
  else if Instr.isBlockBuffer c ∧ len % 16 ≠ 0 then .badLength
  else if (footprint c l).any fun r => decide (2 ^ s.aw < r.base + r.size) then .range
  else if Instr.isChain c ∧ 0 < len ∧ l.addr.toNat < l.kaddr.toNat + klen ∧ l.kaddr.toNat < l.addr.toNat + len then .overlap
  else if c.opcode = 0x33#8 ∧ ¬ isPermutation ((readBytes s.mem l.addr.toNat 258).take 256) then .badState
  else .none

/-- `Check(L)` of R222. -/
def checkLatch (s : State) : ErrCode :=
  match s.eng.latch.command with
  | .error _ => .illegalCmd
  | .ok c => checkDecoded s c

end Sys2Proof.Machine
end

