-- ==== Sys2Proof/Safety.lean ====
section
/-! DEFINITION. What claims are stated in: legal parameters, the invariants of the spec's prose, when a command's operands are good, and what an illegal word is. -/

namespace Sys2Proof.Machine

/-! ## Invariants -/

/-- P holds of every instance. -/
def State.Every (P : Engine → Prop) (s : State) : Prop := ∀ e ∈ s.engines, P e

/-- STATUS is consistent: DONE and ERR are never both 1 (R26), ERRCODE is 0x00 exactly when ERR = 0 (R28), and while BUSY = 1
both are 0 (R201, R204). -/
def Engine.FlagsConsistent (e : Engine) : Prop :=
  ¬(e.done = true ∧ e.err = true) ∧ (e.errcode = .none ↔ e.err = false) ∧
    (e.busy = true → e.done = false ∧ e.err = false)

/-- The key-schedule invariant (R30, R43): the forward slots are the expansion of slot 0, the inverse slots their transforms. -/
def Engine.ScheduleValid (e : Engine) : Prop :=
  (e.invValid = true → e.keyValid = true) ∧
  (e.keyValid = true → ∀ r, r ≤ 10 → e.slot r = roundKey (e.slot 0) r) ∧
  (e.invValid = true → ∀ m, m ≤ 8 → e.slot (11 + m) = invMixColumns (e.slot (9 - m)))

/-- The permutation invariant (R45): while STREAM_VALID = 1 every value occurs exactly once in P. -/
def Engine.PermutationValid (e : Engine) : Prop :=
  e.streamValid = true → ∀ v : Byte, e.gen.p.toList.count v = 1

/-- Memory is in canonical form and lists only addresses that exist (R60; log 1). -/
def State.MemoryValid (s : State) : Prop := Memory.wf s.mem ∧ Memory.within s.mem s.aw

/-- No two instances have overlapping footprints in flight (R243). -/
def State.FootprintsDisjoint (s : State) : Prop :=
  s.engines.Pairwise fun e f => regionsMeet e.footprintInFlight f.footprintInFlight = false

/-- The parameters are legal (R9): AW is 8 to 32, every register block is 256-byte aligned, and no two share an address. -/
def State.ParametersLegal (s : State) : Prop :=
  (8 ≤ s.aw ∧ s.aw ≤ 32) ∧ (∀ e ∈ s.engines, e.base % 256 = 0) ∧
    s.engines.Pairwise fun e f => e.base + 256 ≤ f.base ∨ f.base + 256 ≤ e.base

/-! ## Instances and related states -/

/-- u is s with instance k in focus: the same instances in the same order, and nothing else differs (R243; log 13). -/
def InFocus (s u : State) (k : Nat) : Prop :=
  u.engines = s.engines ∧ u.number = k ∧ u = { s with left := u.left, eng := u.eng, right := u.right }

/-- u is a state in which another command can follow the completion that gave t: the same memory, platform, parameters and
unit state, and a latch with the same ADDR, LEN, KADDR and KLEN; the rest of u is free. -/
def SameUnitsAndOperands (t u : State) : Prop :=
  u.mem = t.mem ∧ u.aw = t.aw ∧ u.refusedMem = t.refusedMem ∧
    u.eng.hasAes = t.eng.hasAes ∧ u.eng.chainFbInit = t.eng.chainFbInit ∧
    u.eng.rks = t.eng.rks ∧ u.eng.keyValid = t.eng.keyValid ∧ u.eng.invValid = t.eng.invValid ∧
    u.eng.gen = t.eng.gen ∧ u.eng.streamValid = t.eng.streamValid ∧
    u.eng.latch.addr = t.eng.latch.addr ∧ u.eng.latch.len = t.eng.latch.len ∧
    u.eng.latch.kaddr = t.eng.latch.kaddr ∧ u.eng.latch.klen = t.eng.latch.klen

/-! ## When operands are good -/

/-- The platform refuses none of these regions to the port (R71). -/
def PortOpen (s : State) (rs : List Region) : Prop := regionsMeet rs s.refusedMem = false

/-- The bytes a command's pseudocode reads or writes: its footprint, of which the CCU reads the key only as far as the buffer is long (R191). -/
def portAccesses (i : Instr) (l : Latch) : List Region :=
  if Instr.isChain i then [l.buffer, chainKeyAccessed l] else footprint i l

/-- A block buffer command's buffer: whole Blocks inside memory, the unit present (R140, R222). -/
def BlockBufferReady (s : State) : Prop :=
  Memory.wf s.mem ∧ s.eng.hasAes = true ∧ s.eng.latch.len.toNat % 16 = 0 ∧
    s.eng.latch.addr.toNat + s.eng.latch.len.toNat ≤ 2 ^ s.aw ∧ PortOpen s [s.eng.latch.buffer]

/-- A CCU command's operands: a nonempty key, both regions inside memory, no overlap (R190, R222). -/
def ChainReady (s : State) : Prop :=
  Memory.wf s.mem ∧ s.eng.latch.klen.toNat ≠ 0 ∧
    s.eng.latch.addr.toNat + s.eng.latch.len.toNat ≤ 2 ^ s.aw ∧
    s.eng.latch.kaddr.toNat + s.eng.latch.klen.toNat ≤ 2 ^ s.aw ∧
    (s.eng.latch.len.toNat = 0 ∨ s.eng.latch.kaddr.toNat + s.eng.latch.klen.toNat ≤ s.eng.latch.addr.toNat ∨
      s.eng.latch.addr.toNat + s.eng.latch.len.toNat ≤ s.eng.latch.kaddr.toNat) ∧
    PortOpen s [s.eng.latch.buffer, chainKeyAccessed s.eng.latch]

/-- The whole effect of a successful command that writes only memory: DONE, BUSY and the memory m (R202). -/
def CompletedWithMemory (s t : State) (m : Memory) : Prop :=
  t = { s with eng := { s.eng with done := true, busy := false }, mem := m }

/-- The whole effect of a successful command that writes only DOUT (R39, R202). -/
def withDout (s : State) (b : Block) : State :=
  { s with eng := { s.eng with dout := unblk b, done := true, busy := false } }

/-- The whole effect of a completion with error (R226). -/
def withError (s : State) (c : ErrCode) : State :=
  { s with eng := { s.eng with err := true, errcode := c, busy := false } }

/-- Every byte outside the latched buffer reads as before. -/
def OutsideBufferUnchanged (s t : State) : Prop :=
  ∀ a, a < s.eng.latch.addr.toNat ∨ s.eng.latch.addr.toNat + s.eng.latch.len.toNat ≤ a →
    readByte t.mem a = readByte s.mem a

/-! ## Illegal words -/

/-- The OP values of the opcode map (R88). -/
def assignedOps : List Byte :=
  [0x10#8, 0x11#8, 0x12#8, 0x13#8, 0x14#8, 0x15#8, 0x16#8, 0x17#8, 0x18#8, 0x19#8,
   0x20#8, 0x21#8, 0x22#8, 0x23#8, 0x24#8, 0x25#8, 0x30#8, 0x31#8, 0x32#8, 0x33#8, 0x40#8, 0x41#8]

/-- An illegal command word, as R223 lists the causes: RSV, OP, ARG of a command that takes none, ARG[7:1] of AES_KEYINIT,
ARG of AES_RKREAD. -/
def IllegalWord (w : Word) : Prop :=
  w.extractLsb' 16 16 ≠ 0#16 ∨
  w.extractLsb' 0 8 ∉ assignedOps ∨
  (w.extractLsb' 0 8 ∈ assignedOps ∧ w.extractLsb' 0 8 ∉ [0x10#8, 0x19#8, 0x25#8] ∧ w.extractLsb' 8 8 ≠ 0x00#8) ∨
  (w.extractLsb' 0 8 = 0x10#8 ∧ w.extractLsb' 9 7 ≠ 0#7) ∨
  (w.extractLsb' 0 8 = 0x19#8 ∧ 19 < (w.extractLsb' 8 8).toNat)

/-! ## Outcomes -/

/-- The next state of an outcome, if it has one. -/
def nextState : Result → Option State
  | .next s => some s
  | .fault _ => none
  | .refused _ => none

/-- A run of k steps is safe when it stops at no fault and no refusal (R239). -/
def SafeFor (k : Nat) (s : State) : Prop :=
  ∃ t, Host.Core.run ⟨State, Fault, Refusal, step, State.reset⟩ k s = .next t

end Sys2Proof.Machine
end

