-- ==== Sys2Proof/Certificates/Slice0/Obligations.lean ====
section
/-! DEFINITION. The statements about the CSE, for the provers. Each docstring names the rule of spec/ it comes from. -/

open Sys2Proof Sys2Proof.Machine

/-! ## Encoding -/

/-- Decode and encode agree (R87, R88, R91): a word decodes to a command exactly when the command is well formed and the word is its encoding. -/
def Obligations.DecodeAndEncodeAgree : Prop :=
  ∀ (w : Word) (i : Instr), decode w = .ok i ↔ (i.wellFormed = true ∧ encode i = w)

/-- R89: a command is selected exactly when `(w AND mask) = match` and, for AES_RKREAD, `w[15:8] <= 19`. -/
def Obligations.MatchMaskSelectsEachCommand : Prop :=
  ∀ (w : Word) (i : Instr), (∃ j, decode w = .ok j ∧ j.opcode = i.opcode) ↔
    (w &&& i.maskBits = i.matchBits ∧ (i.opcode = 0x19#8 → (w.extractLsb' 8 8).toNat ≤ 19))

/-- R223: every word with one of the listed causes completes with ILLEGAL_CMD and no other effect, whatever the state. -/
def Obligations.IllegalWordCompletesWithIllegalCmd : Prop :=
  ∀ (s : State) (w : Word) (rest : List Event), IllegalWord w → s.events = .complete s.number :: rest →
    s.eng.busy = true → s.eng.latch.op = w.extractLsb' 0 8 → s.eng.latch.arg = w.extractLsb' 8 8 →
    s.eng.latch.rsv = w.extractLsb' 16 16 →
    step s = .next (withError { s with events := rest } .illegalCmd)

/-- The words of the pseudo-instructions and programs of R93 and 95 decode to the commands they stand for. -/
def Obligations.SpecWordsDecode : Prop :=
  decode 0x00000110#32 = .ok (.aesKeyinit true) ∧ decode 0x00000010#32 = .ok (.aesKeyinit false) ∧
  decode 0x00000011#32 = .ok .aesEncblk ∧ decode 0x00000015#32 = .ok .aesCbcEnc ∧
  decode 0x00001319#32 = .ok (.aesRkread 19#8) ∧ decode 0x00000125#32 = .ok (.aesKeystep 0x01#8) ∧
  decode 0x00000022#32 = .ok .aesRoundDec ∧ decode 0x00000033#32 = .ok .strLoad ∧
  decode 0x00000041#32 = .ok .chnDec ∧ decode 0x00001419#32 = .error .slotOutOfRange ∧
  decode 0x00000000#32 = .error .unassignedOp

/-! ## A step runs the latched command -/

/-- R202, R205, R243: the completion step of instance k, when it is busy with a legal word, is that command's meaning with instance k in
focus; with an illegal word it reports ILLEGAL_CMD at instance k. -/
def Obligations.StepRunsLatchedCommand : Prop :=
  ∀ (s u : State) (k : Nat) (rest : List Event), s.events = .complete k :: rest →
    InFocus { s with events := rest } u k → u.eng.busy = true →
    (∀ i, decodeFields u.eng.latch.op u.eng.latch.arg u.eng.latch.rsv = .ok i → step s = exec i u) ∧
    (∀ d, decodeFields u.eng.latch.op u.eng.latch.arg u.eng.latch.rsv = .error d →
      step s = .next (withError u .illegalCmd))

/-- A command word placed by withFetchWord is run by the very next step, on the operands captured as a launch captures them. withFetchWord is
the model's choice (log 11): no rule of the spec places a word without a CMD write. -/
def Obligations.FetchWordRunsNext : Prop :=
  ∀ (s : State) (w : Word) (i : Instr), decode w = .ok i →
    step (s.withFetchWord 32 w.toNat) = exec i { s with eng := launchEngine s.eng w }

/-- R271, R273, R245: with no event left, the lowest-numbered busy instance completes; with none busy, nothing happens. That
it is the lowest-numbered one is the model's choice (log 10). -/
def Obligations.EmptyQueueCompletesBusyInstance : Prop :=
  ∀ s : State, s.events = [] →
    ((∀ e ∈ s.engines, e.busy = false) → step s = .next s) ∧
    (∀ i, (∀ e ∈ s.left, e.busy = false) → s.eng.busy = true →
      decodeFields s.eng.latch.op s.eng.latch.arg s.eng.latch.rsv = .ok i → step s = exec i s)

/-- The wait loop of R93 ends, as R273 has it: a host that only polls STATUS reads BUSY = 0 after finitely many steps. In the first part the
completion comes once the polls in the event list are used up, which is the model's choice (log 10); in the second the list
names it (log 9). -/
def Obligations.WaitLoopEnds : Prop :=
  ∀ (s : State) (n : Nat), s.left = [] → s.right = [] → s.eng.busy = true → PortOpen s s.eng.latch.footprint →
    (s.events = List.replicate n (rd s.eng.base .status) →
      ∃ t u, Sys2Proof.core.run (n + 1) s = .next t ∧ t.eng.busy = false ∧
        step { t with events := [rd s.eng.base .status] } = .next u ∧ u.rdata.getLsbD 0 = false) ∧
    (s.events = wait s.eng.base 0 n →
      ∃ t, Sys2Proof.core.run (n + 2) s = .next t ∧ t.eng.busy = false ∧ t.rdata.getLsbD 0 = false)

/-! ## Launch and registers -/

/-- R201: a CMD write while BUSY = 0 captures every operand in L, clears DONE, ERR and ERRCODE, sets BUSY, and changes nothing
else, for every word. The two hypotheses shut out the launches on which a model stops (R239, R243). -/
def Obligations.LaunchCapturesEveryOperand : Prop :=
  ∀ (s : State) (w : Word), s.eng.busy = false →
    regionsMeet (launchEngine s.eng w).latch.footprint s.deviceMem = false →
    regionsMeet (launchEngine s.eng w).latch.footprint (s.others.flatMap Engine.footprintInFlight) = false →
    hostWrite .cmd w s = .next { s with
      eng := { s.eng with
        latch := { op := w.extractLsb' 0 8, arg := w.extractLsb' 8 8, rsv := w.extractLsb' 16 16,
                   addr := s.eng.addr, len := s.eng.len, kaddr := s.eng.kaddr, klen := s.eng.klen,
                   key := blk s.eng.key, din := blk s.eng.din, rkin := blk s.eng.rkin }
        done := false, err := false, errcode := .none, busy := true } }

/-- From R239, R69 and R243: a launch whose footprint names memory with read side effects is refused; one whose footprint meets a
footprint in flight at another instance is a fault. That the stop comes at the launch (logs 14, 16), and that the refusal
comes before the fault (log 25), is the model's choice. -/
def Obligations.LaunchStopsOnForbiddenFootprint : Prop :=
  ∀ (s : State) (w : Word) (i : Instr), s.eng.busy = false → decode w = .ok i →
    ((∃ a, (∃ r ∈ footprint i (launchEngine s.eng w).latch, r.contains a = true) ∧
        ∃ d ∈ s.deviceMem, d.contains a = true) →
      hostWrite .cmd w s = .refused .deviceFootprint) ∧
    (regionsMeet (footprint i (launchEngine s.eng w).latch) s.deviceMem = false →
      (∃ e ∈ s.others, e.busy = true ∧ ∃ a, (∃ r ∈ footprint i (launchEngine s.eng w).latch, r.contains a = true) ∧
        ∃ t ∈ e.latch.footprint, t.contains a = true) →
      hostWrite .cmd w s = .fault .footprintOverlap)

/-- R203: a CMD write while BUSY = 1 sets OVR and changes nothing else. -/
def Obligations.CmdWriteWhileBusyOnlySetsOverrun : Prop :=
  ∀ (s : State) (w : Word), s.eng.busy = true →
    hostWrite .cmd w s = .next { s with eng := { s.eng with ovr := true } }

/-- R258, R46, R203: no register write while BUSY = 1 changes what the command in flight does. -/
def Obligations.RegisterWritesDoNotAffectCommandInFlight : Prop :=
  ∀ (s : State) (r : Reg) (v : Word), s.eng.busy = true → s.eng.FlagsConsistent →
    ∃ t, hostWrite r v s = .next t ∧ t.eng.latch = s.eng.latch ∧ t.eng.busy = true ∧ t.mem = s.mem ∧
      ∀ (i : Instr) (u : State), exec i s = .next u →
        ∃ w, exec i t = .next w ∧ w.mem = u.mem ∧ w.draws = u.draws ∧ w.eng.dout = u.eng.dout ∧
          w.eng.rks = u.eng.rks ∧ w.eng.gen = u.eng.gen ∧ w.eng.keyValid = u.eng.keyValid ∧
          w.eng.invValid = u.eng.invValid ∧ w.eng.streamValid = u.eng.streamValid ∧
          w.eng.done = u.eng.done ∧ w.eng.err = u.eng.err ∧ w.eng.errcode = u.eng.errcode ∧ w.eng.busy = u.eng.busy

/-- R23: the STATUS fields at their bits, ERRCODE as R221 numbers the codes, every other bit 0, all 0 after reset; a write clears DONE, ERR with ERRCODE, and OVR by ones, and
ignores the rest. -/
def Obligations.StatusRegisterReadAndWrite : Prop :=
  (∀ e : Engine,
    (registerValue e .status).getLsbD 0 = e.busy ∧ (registerValue e .status).getLsbD 1 = e.done ∧
    (registerValue e .status).getLsbD 2 = e.err ∧ (registerValue e .status).getLsbD 3 = e.ovr ∧
    (registerValue e .status).extractLsb' 4 4 = 0#4 ∧
    (registerValue e .status).extractLsb' 8 8 = e.errcode.toByte ∧
    (registerValue e .status).getLsbD 16 = e.keyValid ∧ (registerValue e .status).getLsbD 17 = e.invValid ∧
    (registerValue e .status).getLsbD 18 = e.streamValid ∧ (registerValue e .status).extractLsb' 19 13 = 0#13) ∧
  (∀ (s : State) (v : Word),
    hostWrite .status v s = .next { s with
      eng := { s.eng with
        done := if v.getLsbD 1 then false else s.eng.done
        err := if v.getLsbD 2 then false else s.eng.err
        errcode := if v.getLsbD 2 then .none else s.eng.errcode
        ovr := if v.getLsbD 3 then false else s.eng.ovr } }) ∧
  registerValue State.reset.eng .status = 0#32 ∧
  ErrCode.none.toByte = 0x00#8 ∧ ErrCode.illegalCmd.toByte = 0x01#8 ∧ ErrCode.unsupported.toByte = 0x02#8 ∧
  ErrCode.noKey.toByte = 0x03#8 ∧ ErrCode.noInvKey.toByte = 0x04#8 ∧ ErrCode.noStream.toByte = 0x05#8 ∧
  ErrCode.badKeyLen.toByte = 0x06#8 ∧ ErrCode.badLength.toByte = 0x07#8 ∧ ErrCode.range.toByte = 0x08#8 ∧
  ErrCode.overlap.toByte = 0x09#8 ∧ ErrCode.badState.toByte = 0x0A#8

/-- R22, R47: CTRL bit 0 is IE, bits 31:1 read 0; a write sets IE to its bit 0 and has no other effect, BUSY or not; IE is 0 after reset and
lets DONE or ERR drive irq. -/
def Obligations.ControlRegisterReadAndWrite : Prop :=
  (∀ (e : Engine) (k : Nat), (registerValue e .ctrl).getLsbD k = (decide (k = 0) && e.ie)) ∧
  (∀ (s : State) (v : Word), hostWrite .ctrl v s = .next { s with eng := { s.eng with ie := v.getLsbD 0 } }) ∧
  State.reset.eng.ie = false ∧ (∀ e : Engine, e.irq = (e.ie && (e.done || e.err)))

/-- R21, R39, R41, R32: CAPS reads HAS_AES in bit 0, ones in bits 1 and 2 and zeros above; CMD and the reserved offsets read 0; a write
to CAPS, DOUT or a reserved offset changes nothing. -/
def Obligations.ReadOnlyOffsetsIgnoreWrites : Prop :=
  (∀ (e : Engine) (k : Nat), (registerValue e .caps).getLsbD k =
    ((decide (k = 0) && e.hasAes) || decide (k = 1) || decide (k = 2))) ∧
  (∀ (e : Engine) (n : Nat), registerValue e .cmd = 0#32 ∧ registerValue e (.reserved n) = 0#32) ∧
  (∀ (s : State) (v : Word) (r : Reg), (r = .caps ∨ (∃ k, r = .dout k) ∨ ∃ n, r = .reserved n) →
    hostWrite r v s = .next s)

/-- R33 to R38, R40: a write to ADDR, LEN, KADDR, KLEN, KEY, DIN or RKIN stores its value (ADDR and KADDR only bits AW-1:0) in that
register, leaves every other register as it reads, and changes no other state. -/
def Obligations.OperandRegistersStoreOnly : Prop :=
  ∀ (s : State) (r : Reg) (v : Word),
    (r = .addr ∨ r = .len ∨ r = .kaddr ∨ r = .klen ∨ ∃ n, r = .key n ∨ r = .din n ∨ r = .rkin n) →
    ∃ t, hostWrite r v s = .next t ∧
      (registerValue t.eng r).toNat = (if r = .addr ∨ r = .kaddr then v.toNat % 2 ^ s.aw else v.toNat) ∧
      (∀ q, q ≠ r → registerValue t.eng q = registerValue s.eng q) ∧
      t = { s with eng := { s.eng with addr := t.eng.addr, len := t.eng.len, kaddr := t.eng.kaddr, klen := t.eng.klen,
                                       key := t.eng.key, din := t.eng.din, rkin := t.eng.rkin } }

/-- R206: a read returns the register's value and has no other effect; CMD and the reserved offsets read 0; DOUT read while BUSY = 1 returns
some value, and nothing else of the machine changes. -/
def Obligations.HostReadHasNoSideEffect : Prop :=
  ∀ (s : State) (r : Reg),
    ((s.eng.busy = false ∨ ∀ k, r ≠ .dout k) → hostRead r s = { s with rdata := registerValue s.eng r }) ∧
    (r = .cmd ∨ (∃ n, r = .reserved n) → registerValue s.eng r = 0#32) ∧
    (∀ k, s.eng.busy = true → r = .dout k →
      hostRead r s = { s with rdata := (hostRead r s).rdata, draws := (hostRead r s).draws })

/-- R86, R20, R243: a 32-bit access at `ENGINE_BASE + offset(NAME)` of instance k reaches register NAME of instance k, a write as a write, a
read as a read. -/
def Obligations.BusAccessReachesRegister : Prop :=
  ∀ (s u : State) (k : Nat) (r : Reg) (v : Word) (rest : List Event), s.ParametersLegal →
    (∀ n, r = .reserved n → n < 40) → InFocus { s with events := rest } u k →
    (s.events = wr u.eng.base r v :: rest → step s = hostWrite r v u) ∧
    (s.events = rd u.eng.base r :: rest → step s = .next (hostRead r u))

/-- R65, R239: a register access that is not 32 bits wide and 4-byte aligned is refused. -/
def Obligations.NarrowOrMisalignedAccessRefused : Prop :=
  ∀ (s : State) (a width : Nat) (v : Word) (rest : List Event), s.ParametersLegal →
    (∃ e ∈ s.engines, e.base ≤ a ∧ a < e.base + 256) → (width ≠ 32 ∨ a % 4 ≠ 0) →
    (s.events = .regWrite a width v :: rest → step s = .refused .registerAccessForm) ∧
    (s.events = .regRead a width :: rest → step s = .refused .registerAccessForm)

/-! ## Host memory accesses -/

/-- R92, R14: outside every footprint in flight and in ordinary memory, `mw` stores its bytes and changes nothing else, and `mr` returns the bytes
and changes nothing else. In memory with read side effects either is refused: the model's choice (log 16). -/
def Obligations.HostMemoryAccessOutsideFootprints : Prop :=
  ∀ (s : State) (a n : Nat) (bytes : List Byte) (rest : List Event), Memory.wf s.mem →
    (∀ b, a ≤ b → b < a + n → ∀ e ∈ s.engines, e.busy = true → ∀ r ∈ e.latch.footprint, r.contains b = false) →
    a + n ≤ 2 ^ s.aw → bytes.length = n →
    ((∀ b, a ≤ b → b < a + n → ∀ d ∈ s.deviceMem, d.contains b = false) →
      (s.events = mw a bytes :: rest → ∃ t, step s = .next t ∧ t = { s with events := rest, mem := t.mem } ∧
        (∀ k, k < n → bytes[k]? = some (readByte t.mem (a + k))) ∧
        (∀ b, b < a ∨ a + n ≤ b → readByte t.mem b = readByte s.mem b)) ∧
      (s.events = mr a n :: rest → ∃ t, step s = .next t ∧ t = { s with events := rest, mdata := t.mdata } ∧
        t.mdata.length = n ∧ ∀ k, k < n → t.mdata[k]? = some (readByte s.mem (a + k)))) ∧
    ((∃ b, a ≤ b ∧ b < a + n ∧ ∃ d ∈ s.deviceMem, d.contains b = true) →
      (s.events = mw a bytes :: rest → step s = .refused .deviceAccess) ∧
      (s.events = mr a n :: rest → step s = .refused .deviceAccess))

/-- R74, R239: a host memory access to a byte of a footprint in flight is a fault. -/
def Obligations.HostAccessToFootprintFaults : Prop :=
  ∀ (s : State) (a n b : Nat) (bytes : List Byte) (rest : List Event) (e : Engine) (r : Region),
    a + n ≤ 2 ^ s.aw → a ≤ b → b < a + n → e ∈ s.engines → e.busy = true → r ∈ e.latch.footprint →
    r.contains b = true → bytes.length = n →
    (s.events = mw a bytes :: rest → step s = .fault .footprintAccess) ∧
    (s.events = mr a n :: rest → step s = .fault .footprintAccess)

/-! ## Completion -/

/-- R222, R226: a completion reports the first failing check of `Check(L)` and then changes only ERR, ERRCODE and BUSY; when no check
fails the command finishes. Where the image check or the command itself reads or writes memory, the platform refuses none of it. -/
def Obligations.CompletionReportsFirstFailingCheck : Prop :=
  ∀ (s : State) (rest : List Event), s.events = .complete s.number :: rest → s.eng.busy = true →
    (checkLatch s ≠ .none → (checkLatch s = .badState → PortOpen s s.eng.latch.footprint) →
      step s = .next (withError { s with events := rest } (checkLatch s))) ∧
    (checkLatch s = .none → PortOpen s s.eng.latch.footprint → ∃ t, step s = .next t ∧ t.eng.done = true ∧
      t.eng.busy = false ∧ t.eng.err = s.eng.err ∧ t.eng.errcode = s.eng.errcode)

/-- R202, R233, R235: every completion clears BUSY, sets exactly one of DONE and ERR, and raises irq when the interrupt is enabled. -/
def Obligations.EveryCompletionReportsOneOutcome : Prop :=
  ∀ (i : Instr) (s t : State), s.eng.done = false → s.eng.err = false → exec i s = .next t →
    t.eng.busy = false ∧ (t.eng.done = true ↔ t.eng.err = false) ∧ t.eng.irq = s.eng.ie

/-- The frame of every command, from R39, R42, R44, R66, R195 and R226: which commands may write DOUT, the key schedule, the generator and memory;
nothing
else of any instance or of the machine changes but STATUS. -/
def Obligations.CommandFrame : Prop :=
  ∀ (i : Instr) (s t : State), Memory.wf s.mem → exec i s = .next t →
    t = { s with
      eng := { s.eng with busy := t.eng.busy, done := t.eng.done, err := t.eng.err, errcode := t.eng.errcode,
                          keyValid := t.eng.keyValid, invValid := t.eng.invValid, streamValid := t.eng.streamValid,
                          dout := t.eng.dout, rks := t.eng.rks, gen := t.eng.gen }
      mem := t.mem, draws := t.draws } ∧
    (i.opcode ∉ [0x11#8, 0x12#8, 0x19#8, 0x20#8, 0x21#8, 0x22#8, 0x23#8, 0x24#8, 0x25#8] →
      t.eng.dout = s.eng.dout) ∧
    (i.opcode ≠ 0x10#8 → t.eng.rks = s.eng.rks ∧ t.eng.keyValid = s.eng.keyValid ∧ t.eng.invValid = s.eng.invValid ∧
      t.draws = s.draws) ∧
    (i.opcode ∉ [0x30#8, 0x31#8, 0x33#8] → t.eng.gen = s.eng.gen) ∧
    (i.opcode ∉ [0x30#8, 0x33#8] → t.eng.streamValid = s.eng.streamValid) ∧
    (∀ a, (∀ r ∈ writtenFootprint i s.eng.latch, r.contains a = false) → readByte t.mem a = readByte s.mem a)

/-- From R71 and R239: a command that would touch memory the platform refuses never completes. That the bytes are those the pseudocode touches
(of STR_LOAD also those its image check reads), that the checks before it come first, and that a stuck engine is a fault that
ends the run, is the model's choice (log 15). -/
def Obligations.RefusedPortAccessSticks : Prop :=
  ∀ (s : State) (rest : List Event) (i : Instr), s.events = .complete s.number :: rest → s.eng.busy = true →
    s.eng.latch.command = .ok i → (checkLatch s = .none ∨ checkLatch s = .badState) →
    regionsMeet (portAccesses i s.eng.latch) s.refusedMem = true → step s = .fault .engineStuck

/-- R224: every BCU command completes with UNSUPPORTED when HAS_AES = 0, and with HAS_AES = 1 none does. -/
def Obligations.UnsupportedExactlyWithoutBcu : Prop :=
  (∀ (i : Instr) (s : State), i.wellFormed = true →
    i.opcode ∈ [0x10#8, 0x11#8, 0x12#8, 0x13#8, 0x14#8, 0x15#8, 0x16#8, 0x17#8, 0x18#8, 0x19#8,
                0x20#8, 0x21#8, 0x22#8, 0x23#8, 0x24#8, 0x25#8] →
    s.eng.hasAes = false → exec i s = .next (withError s .unsupported)) ∧
  (∀ (i : Instr) (s t : State), s.eng.hasAes = true → s.eng.errcode ≠ .unsupported → exec i s = .next t →
    t.eng.errcode ≠ .unsupported)

/-! ## Reset -/

/-- R52: the machine right after reset, by its registers, its flags and its irq; R9: the default parameters, which are legal. What RKS, P, PI, PJ
and L hold is the model's choice (logs 2, 3, 4), as is ENGINE_BASE (log 12), and is not stated. -/
def Obligations.ResetStateHoldsSpecValues : Prop :=
  (∀ r : Reg, registerValue State.reset.eng r = if r = .caps then 0x00000007#32 else 0#32) ∧
    State.reset.eng.irq = false ∧ State.reset.nEngines = 1 ∧ State.reset.aw = 32 ∧ State.reset.eng.hasAes = true ∧
    State.reset.eng.chainFbInit = 0x00#8 ∧ State.reset.ParametersLegal

/-- R250, R251, R252: reset of instance k puts every register of it at 0 except CAPS, leaves every other instance as it was, and of memory
touches at most the written part of the footprint in flight at k. -/
def Obligations.ResetOfInstance : Prop :=
  ∀ (s u : State) (k : Nat) (rest : List Event), Memory.wf s.mem → s.events = .reset k :: rest →
    InFocus { s with events := rest } u k →
    ∃ t, step s = .next t ∧ t.engines[k]? = some t.eng ∧ (∀ j, j ≠ k → t.engines[j]? = s.engines[j]?) ∧
      (∀ r : Reg, registerValue t.eng r = if r = .caps then registerValue u.eng .caps else 0#32) ∧
      t.eng.irq = false ∧ t.eng.base = u.eng.base ∧ t.eng.hasAes = u.eng.hasAes ∧
      t.eng.chainFbInit = u.eng.chainFbInit ∧
      t = { u with eng := t.eng, mem := t.mem, draws := t.draws } ∧
      (∀ a, (u.eng.busy = false ∨ ∀ r ∈ u.eng.latch.writtenFootprint, r.contains a = false) →
        readByte t.mem a = readByte s.mem a)

/-! ## The block cipher core -/

/-- R119: AES_KEYINIT writes the forward schedule of KEY, with DEC = 1 the inverse keys too, sets the valid flags, and changes nothing else. -/
def Obligations.KeyinitExpandsKey : Prop :=
  ∀ (s : State) (dec : Bool), s.eng.hasAes = true →
    ∃ t, exec (.aesKeyinit dec) s = .next t ∧
      (∀ r, r ≤ 10 → t.eng.slot r = roundKey s.eng.latch.key r) ∧
      (dec = true → ∀ m, m ≤ 8 → t.eng.slot (11 + m) = invMixColumns (roundKey s.eng.latch.key (9 - m))) ∧
      t = { s with
        eng := { s.eng with rks := t.eng.rks, keyValid := true, invValid := dec, done := true, busy := false }
        draws := t.draws }

/-- R120: AES_RKREAD puts the slot in DOUT and changes nothing else. -/
def Obligations.RkreadReadsSlot : Prop :=
  ∀ (s : State) (slot : Byte) (h : slot.toNat < 20), s.eng.hasAes = true → s.eng.keyValid = true →
    (11 ≤ slot.toNat → s.eng.invValid = true) →
    exec (.aesRkread slot) s = .next (withDout s (s.eng.rks[slot.toNat]'h))

/-- R121 to R126: each round primitive puts its function of DIN, RKIN and ARG in DOUT, needs no key schedule, and changes nothing else. -/
def Obligations.RoundPrimitivesWriteDout : Prop :=
  ∀ (s : State) (rc : Byte), s.eng.hasAes = true →
    exec .aesRoundEnc s =
      .next (withDout s ((mixColumns (shiftRows (subBytes s.eng.latch.din))).xor s.eng.latch.rkin)) ∧
    exec .aesRoundEnclast s =
      .next (withDout s ((shiftRows (subBytes s.eng.latch.din)).xor s.eng.latch.rkin)) ∧
    exec .aesRoundDec s =
      .next (withDout s ((invMixColumns (invSubBytes (invShiftRows s.eng.latch.din))).xor s.eng.latch.rkin)) ∧
    exec .aesRoundDeclast s =
      .next (withDout s ((invSubBytes (invShiftRows s.eng.latch.din)).xor s.eng.latch.rkin)) ∧
    exec .aesInvmix s = .next (withDout s (invMixColumns s.eng.latch.din)) ∧
    exec (.aesKeystep rc) s = .next (withDout s (nextRoundKey s.eng.latch.din rc))

/-- R141, R142: AES_ENCBLK and AES_DECBLK put the encrypted and the decrypted Block in DOUT and change nothing else. -/
def Obligations.SingleBlockCommandsWriteDout : Prop :=
  ∀ s : State, s.eng.hasAes = true → s.eng.keyValid = true →
    exec .aesEncblk s = .next (withDout s (encryptBlock s.eng.latch.din s.eng.slot)) ∧
    (s.eng.invValid = true →
      exec .aesDecblk s = .next (withDout s (decryptBlock s.eng.latch.din s.eng.slot fun m => s.eng.slot (11 + m))))

/-- R102, R103, which the spec supplies from general knowledge: the S-box table is the affine map of the field inverse, and the inverse table
inverts it. -/
def Obligations.SboxIsAffineOfInverse : Prop :=
  (∀ a c : Byte, (a = 0x00#8 → c = 0x00#8) → (a ≠ 0x00#8 → gmul a c = 0x01#8) →
    sbox a = c ^^^ c.rotateLeft 1 ^^^ c.rotateLeft 2 ^^^ c.rotateLeft 3 ^^^ c.rotateLeft 4 ^^^ 0x63#8) ∧
  (∀ a : Byte, invSbox (sbox a) = a ∧ sbox (invSbox a) = a)

/-- R109: InvMixColumns inverts MixColumns, is linear, and fixes the all-zero and the all-0xFF Block. -/
def Obligations.InvMixColumnsInvertsMixColumns : Prop :=
  (∀ b : Block, invMixColumns (mixColumns b) = b) ∧
  (∀ a b : Block, invMixColumns (a.xor b) = (invMixColumns a).xor (invMixColumns b)) ∧
  invMixColumns Block.zero = Block.zero ∧
  invMixColumns (Block.mapBytes (fun _ => 0xFF#8) Block.zero) = Block.mapBytes (fun _ => 0xFF#8) Block.zero

/-- R118, which the spec derives from R109, R111, R116 and R117: for every key and Block, decryption with the equivalent inverse keys inverts
encryption, and encryption inverts decryption. -/
def Obligations.DecryptInvertsEncrypt : Prop :=
  ∀ k b : Block,
    decryptBlock (encryptBlock b (roundKey k)) (roundKey k) (fun m => invMixColumns (roundKey k (9 - m))) = b ∧
    encryptBlock (decryptBlock b (roundKey k) (fun m => invMixColumns (roundKey k (9 - m)))) (roundKey k) = b

/-! ## Block cipher modes -/

/-- R143, R144, R140: ECB transforms each Block of the buffer on its own, in place, and nothing else changes. -/
def Obligations.EcbTransformsEachBlock : Prop :=
  ∀ s : State, BlockBufferReady s → s.eng.keyValid = true →
    (∃ t, exec .aesEcbEnc s = .next t ∧ CompletedWithMemory s t t.mem ∧ OutsideBufferUnchanged s t ∧
      ∀ k, k < s.eng.latch.len.toNat / 16 →
        readBlock t.mem (s.eng.latch.addr.toNat + 16 * k) =
          encryptBlock (readBlock s.mem (s.eng.latch.addr.toNat + 16 * k)) s.eng.slot) ∧
    (s.eng.invValid = true →
      ∃ t, exec .aesEcbDec s = .next t ∧ CompletedWithMemory s t t.mem ∧ OutsideBufferUnchanged s t ∧
        ∀ k, k < s.eng.latch.len.toNat / 16 →
          readBlock t.mem (s.eng.latch.addr.toNat + 16 * k) =
            decryptBlock (readBlock s.mem (s.eng.latch.addr.toNat + 16 * k)) s.eng.slot fun m => s.eng.slot (11 + m))

/-- R145, R146: CBC with a zero initialisation vector: each Block is encrypted after the XOR with the ciphertext Block before it, and decrypted
before the XOR with the incoming ciphertext Block before it. -/
def Obligations.CbcChainsCiphertextBlocks : Prop :=
  ∀ s : State, BlockBufferReady s → s.eng.keyValid = true →
    (∃ t, exec .aesCbcEnc s = .next t ∧ CompletedWithMemory s t t.mem ∧ OutsideBufferUnchanged s t ∧
      ∀ k, k < s.eng.latch.len.toNat / 16 →
        readBlock t.mem (s.eng.latch.addr.toNat + 16 * k) =
          encryptBlock ((readBlock s.mem (s.eng.latch.addr.toNat + 16 * k)).xor
            (if k = 0 then Block.zero else readBlock t.mem (s.eng.latch.addr.toNat + 16 * (k - 1)))) s.eng.slot) ∧
    (s.eng.invValid = true →
      ∃ t, exec .aesCbcDec s = .next t ∧ CompletedWithMemory s t t.mem ∧ OutsideBufferUnchanged s t ∧
        ∀ k, k < s.eng.latch.len.toNat / 16 →
          readBlock t.mem (s.eng.latch.addr.toNat + 16 * k) =
            (decryptBlock (readBlock s.mem (s.eng.latch.addr.toNat + 16 * k)) s.eng.slot
              fun m => s.eng.slot (11 + m)).xor
              (if k = 0 then Block.zero else readBlock s.mem (s.eng.latch.addr.toNat + 16 * (k - 1))))

/-- R147, R148: the XOR chain: encryption XORs with the output Block before, decryption with the input Block before; no key. -/
def Obligations.XorChainChainsBlocks : Prop :=
  ∀ s : State, BlockBufferReady s →
    (∃ t, exec .xorChainEnc s = .next t ∧ CompletedWithMemory s t t.mem ∧ OutsideBufferUnchanged s t ∧
      ∀ k, k < s.eng.latch.len.toNat / 16 →
        readBlock t.mem (s.eng.latch.addr.toNat + 16 * k) =
          (readBlock s.mem (s.eng.latch.addr.toNat + 16 * k)).xor
            (if k = 0 then Block.zero else readBlock t.mem (s.eng.latch.addr.toNat + 16 * (k - 1)))) ∧
    (∃ t, exec .xorChainDec s = .next t ∧ CompletedWithMemory s t t.mem ∧ OutsideBufferUnchanged s t ∧
      ∀ k, k < s.eng.latch.len.toNat / 16 →
        readBlock t.mem (s.eng.latch.addr.toNat + 16 * k) =
          (readBlock s.mem (s.eng.latch.addr.toNat + 16 * k)).xor
            (if k = 0 then Block.zero else readBlock s.mem (s.eng.latch.addr.toNat + 16 * (k - 1))))

/-- R149, which the spec derives from R143, R144 and R118: AES_ECB_DEC after AES_ECB_ENC restores memory, and the ciphertext of a Block depends
only on that Block and the schedule. -/
def Obligations.EcbRoundTrip : Prop :=
  (∀ s : State, BlockBufferReady s → s.eng.ScheduleValid → s.eng.keyValid = true → s.eng.invValid = true →
    ∃ t, exec .aesEcbEnc s = .next t ∧ ∀ u, SameUnitsAndOperands t u →
      ∃ v, exec .aesEcbDec u = .next v ∧ ∀ a, readByte v.mem a = readByte s.mem a) ∧
  (∀ (s u : State) (k : Nat), BlockBufferReady s → BlockBufferReady u → s.eng.keyValid = true → u.eng.keyValid = true →
    u.eng.rks = s.eng.rks → k < s.eng.latch.len.toNat / 16 → k < u.eng.latch.len.toNat / 16 →
    readBlock u.mem (u.eng.latch.addr.toNat + 16 * k) = readBlock s.mem (s.eng.latch.addr.toNat + 16 * k) →
    ∃ t v, exec .aesEcbEnc s = .next t ∧ exec .aesEcbEnc u = .next v ∧
      readBlock v.mem (u.eng.latch.addr.toNat + 16 * k) = readBlock t.mem (s.eng.latch.addr.toNat + 16 * k))

/-- R150, which the spec derives from R145, R146 and R118: AES_CBC_DEC after AES_CBC_ENC restores memory. -/
def Obligations.CbcRoundTrip : Prop :=
  ∀ s : State, BlockBufferReady s → s.eng.ScheduleValid → s.eng.keyValid = true → s.eng.invValid = true →
    ∃ t, exec .aesCbcEnc s = .next t ∧ ∀ u, SameUnitsAndOperands t u →
      ∃ v, exec .aesCbcDec u = .next v ∧ ∀ a, readByte v.mem a = readByte s.mem a

/-- R151, which the spec derives from R147 and R148: the XOR chain restores memory in either order. -/
def Obligations.XorChainRoundTrip : Prop :=
  ∀ s : State, BlockBufferReady s →
    (∃ t, exec .xorChainEnc s = .next t ∧ ∀ u, SameUnitsAndOperands t u →
      ∃ v, exec .xorChainDec u = .next v ∧ ∀ a, readByte v.mem a = readByte s.mem a) ∧
    (∃ t, exec .xorChainDec s = .next t ∧ ∀ u, SameUnitsAndOperands t u →
      ∃ v, exec .xorChainEnc u = .next v ∧ ∀ a, readByte v.mem a = readByte s.mem a)

/-- R152, which the spec derives from R143, R145 and R118: two equal plaintext Blocks give equal ciphertext Blocks under ECB, and under CBC
different ones except for the one plaintext Block whose encryption is zero. -/
def Obligations.CbcDiffusesEqualBlocks : Prop :=
  ∀ s : State, BlockBufferReady s → s.eng.ScheduleValid → s.eng.keyValid = true → s.eng.latch.len.toNat = 32 →
    readBlock s.mem (s.eng.latch.addr.toNat + 16) = readBlock s.mem s.eng.latch.addr.toNat →
    ∃ t u, exec .aesEcbEnc s = .next t ∧ exec .aesCbcEnc s = .next u ∧
      readBlock t.mem (s.eng.latch.addr.toNat + 16) = readBlock t.mem s.eng.latch.addr.toNat ∧
      (readBlock u.mem (s.eng.latch.addr.toNat + 16) = readBlock u.mem s.eng.latch.addr.toNat ↔
        encryptBlock (readBlock s.mem s.eng.latch.addr.toNat) s.eng.slot = Block.zero) ∧
      (encryptBlock (readBlock s.mem s.eng.latch.addr.toNat) s.eng.slot = Block.zero →
        readBlock u.mem s.eng.latch.addr.toNat = Block.zero)

/-! ## The stream cipher unit -/

/-- R173: STR_INIT keys the generator with the key bytes at KADDR, sets STREAM_VALID, and changes nothing else. -/
def Obligations.StrInitKeysGenerator : Prop :=
  ∀ s : State, 1 ≤ s.eng.latch.klen.toNat → s.eng.latch.klen.toNat ≤ 256 →
    s.eng.latch.kaddr.toNat + s.eng.latch.klen.toNat ≤ 2 ^ s.aw → PortOpen s [s.eng.latch.keyRegion] →
    exec .strInit s = .next { s with
      eng := { s.eng with gen := ksa (readBytes s.mem s.eng.latch.kaddr.toNat s.eng.latch.klen.toNat)
                          streamValid := true, done := true, busy := false } }

/-- R174: STR_XFORM XORs byte n of the buffer with keystream byte n, leaves the generator where the last NextKey left it, and changes nothing else. -/
def Obligations.StrXformXorsKeystream : Prop :=
  ∀ s : State, Memory.wf s.mem → s.eng.streamValid = true →
    s.eng.latch.addr.toNat + s.eng.latch.len.toNat ≤ 2 ^ s.aw → PortOpen s [s.eng.latch.buffer] →
    ∃ t, exec .strXform s = .next t ∧ OutsideBufferUnchanged s t ∧
      t = { s with
        eng := { s.eng with gen := advanceN s.eng.latch.len.toNat s.eng.gen, done := true, busy := false }
        mem := t.mem } ∧
      ∀ n, n < s.eng.latch.len.toNat →
        readByte t.mem (s.eng.latch.addr.toNat + n) =
          readByte s.mem (s.eng.latch.addr.toNat + n) ^^^ nextKey (advanceN n s.eng.gen)

/-- R175: STR_SAVE writes P[0] to P[255], PI and PJ to the 258 bytes at ADDR and changes nothing else. -/
def Obligations.StrSaveWritesImage : Prop :=
  ∀ s : State, Memory.wf s.mem → s.eng.streamValid = true → s.eng.latch.addr.toNat + 258 ≤ 2 ^ s.aw →
    PortOpen s [s.eng.latch.image] →
    ∃ t, exec .strSave s = .next t ∧ CompletedWithMemory s t t.mem ∧
      (∀ k : Byte, readByte t.mem (s.eng.latch.addr.toNat + k.toNat) = permGet s.eng.gen.p k) ∧
      readByte t.mem (s.eng.latch.addr.toNat + 256) = s.eng.gen.pi ∧
      readByte t.mem (s.eng.latch.addr.toNat + 257) = s.eng.gen.pj ∧
      (∀ a, a < s.eng.latch.addr.toNat ∨ s.eng.latch.addr.toNat + 258 ≤ a → readByte t.mem a = readByte s.mem a)

/-- R176, R231: STR_LOAD restores P, PI and PJ from a permutation image and sets STREAM_VALID; on any other image it completes with BAD_STATE and
no other effect. -/
def Obligations.StrLoadRestoresOrRejects : Prop :=
  ∀ s : State, s.eng.latch.addr.toNat + 258 ≤ 2 ^ s.aw → PortOpen s [s.eng.latch.image] →
    ((∀ v : Byte, (readBytes s.mem s.eng.latch.addr.toNat 256).count v = 1) →
      ∃ t, exec .strLoad s = .next t ∧
        (∀ k : Byte, permGet t.eng.gen.p k = readByte s.mem (s.eng.latch.addr.toNat + k.toNat)) ∧
        t.eng.gen.pi = readByte s.mem (s.eng.latch.addr.toNat + 256) ∧
        t.eng.gen.pj = readByte s.mem (s.eng.latch.addr.toNat + 257) ∧
        t = { s with eng := { s.eng with gen := t.eng.gen, streamValid := true, done := true, busy := false } }) ∧
    ((∃ v : Byte, (readBytes s.mem s.eng.latch.addr.toNat 256).count v ≠ 1) →
      exec .strLoad s = .next (withError s .badState))

/-- R177, which the spec derives from R173 and R174: keying, transforming, keying again with the same key bytes and transforming again restores
memory; the key bytes are the same
when the key lies outside the buffer. -/
def Obligations.StreamCipherIsSelfInverse : Prop :=
  ∀ s : State, Memory.wf s.mem → 1 ≤ s.eng.latch.klen.toNat → s.eng.latch.klen.toNat ≤ 256 →
    s.eng.latch.kaddr.toNat + s.eng.latch.klen.toNat ≤ 2 ^ s.aw →
    s.eng.latch.addr.toNat + s.eng.latch.len.toNat ≤ 2 ^ s.aw →
    PortOpen s [s.eng.latch.buffer, s.eng.latch.keyRegion] →
    ∃ t, exec .strInit s = .next t ∧ ∀ t', SameUnitsAndOperands t t' → ∃ u, exec .strXform t' = .next u ∧
      (s.eng.latch.buffer.meets s.eng.latch.keyRegion = false →
        readBytes u.mem s.eng.latch.kaddr.toNat s.eng.latch.klen.toNat =
          readBytes s.mem s.eng.latch.kaddr.toNat s.eng.latch.klen.toNat) ∧
      ∀ u', SameUnitsAndOperands u u' →
        readBytes u'.mem s.eng.latch.kaddr.toNat s.eng.latch.klen.toNat =
          readBytes s.mem s.eng.latch.kaddr.toNat s.eng.latch.klen.toNat →
        ∃ v, exec .strInit u' = .next v ∧ ∀ v', SameUnitsAndOperands v v' →
          ∃ w, exec .strXform v' = .next w ∧ ∀ a, readByte w.mem a = readByte s.mem a

/-- R178, which the spec derives from R171 to R176: the same key bytes give the same generator, and a generator loaded from an image that STR_SAVE
wrote is the generator saved. -/
def Obligations.EqualKeysAndForksGiveEqualGenerators : Prop :=
  (∀ s u t v : State, exec .strInit s = .next t → exec .strInit u = .next v → t.eng.done = true → v.eng.done = true →
    s.eng.done = false → u.eng.done = false →
    readBytes u.mem u.eng.latch.kaddr.toNat u.eng.latch.klen.toNat =
      readBytes s.mem s.eng.latch.kaddr.toNat s.eng.latch.klen.toNat → v.eng.gen = t.eng.gen) ∧
  (∀ s t u : State, Memory.wf s.mem → s.eng.PermutationValid → s.eng.streamValid = true →
    s.eng.latch.addr.toNat + 258 ≤ 2 ^ s.aw → PortOpen s [s.eng.latch.image] → exec .strSave s = .next t →
    u.eng.latch.addr.toNat + 258 ≤ 2 ^ u.aw → PortOpen u [u.eng.latch.image] →
    (∀ k, k < 258 → readByte u.mem (u.eng.latch.addr.toNat + k) = readByte t.mem (s.eng.latch.addr.toNat + k)) →
    ∃ v, exec .strLoad u = .next v ∧ v.eng.gen = s.eng.gen ∧ v.eng.streamValid = true)

/-! ## The chain cipher unit -/

/-- R191, R192: each byte of the buffer is XORed with key byte n mod KLEN and with the ciphertext byte before it, which CHN_ENC has written
and CHN_DEC has read; the first with CHAIN_FB_INIT. -/
def Obligations.ChainCommandsFeedBackCiphertext : Prop :=
  ∀ s : State, ChainReady s →
    (∃ t, exec .chnEnc s = .next t ∧ CompletedWithMemory s t t.mem ∧ OutsideBufferUnchanged s t ∧
      ∀ n, n < s.eng.latch.len.toNat →
        readByte t.mem (s.eng.latch.addr.toNat + n) =
          readByte s.mem (s.eng.latch.addr.toNat + n) ^^^
            readByte s.mem (s.eng.latch.kaddr.toNat + n % s.eng.latch.klen.toNat) ^^^
            (if n = 0 then s.eng.chainFbInit else readByte t.mem (s.eng.latch.addr.toNat + (n - 1)))) ∧
    (∃ t, exec .chnDec s = .next t ∧ CompletedWithMemory s t t.mem ∧ OutsideBufferUnchanged s t ∧
      ∀ n, n < s.eng.latch.len.toNat →
        readByte t.mem (s.eng.latch.addr.toNat + n) =
          readByte s.mem (s.eng.latch.addr.toNat + n) ^^^
            readByte s.mem (s.eng.latch.kaddr.toNat + n % s.eng.latch.klen.toNat) ^^^
            (if n = 0 then s.eng.chainFbInit else readByte s.mem (s.eng.latch.addr.toNat + (n - 1))))

/-- R193, which the spec derives from R191 and R192: CHN_DEC after CHN_ENC restores memory. -/
def Obligations.ChainRoundTrip : Prop :=
  ∀ s : State, ChainReady s →
    ∃ t, exec .chnEnc s = .next t ∧ ∀ u, SameUnitsAndOperands t u →
      ∃ v, exec .chnDec u = .next v ∧ ∀ a, readByte v.mem a = readByte s.mem a

/-- R194, which the spec derives from R191: plaintexts that differ only in byte m, by d, have ciphertexts that differ by d in every byte from m on
and in none before. -/
def Obligations.ChainDifferencePropagates : Prop :=
  ∀ (s u : State) (m : Nat) (d : Byte), ChainReady s → ChainReady u → u.eng.latch = s.eng.latch →
    u.eng.chainFbInit = s.eng.chainFbInit → m < s.eng.latch.len.toNat →
    (∀ j, j < s.eng.latch.klen.toNat →
      readByte u.mem (s.eng.latch.kaddr.toNat + j) = readByte s.mem (s.eng.latch.kaddr.toNat + j)) →
    (∀ n, n < s.eng.latch.len.toNat → readByte u.mem (s.eng.latch.addr.toNat + n) =
      readByte s.mem (s.eng.latch.addr.toNat + n) ^^^ (if n = m then d else 0x00#8)) →
    ∃ t v, exec .chnEnc s = .next t ∧ exec .chnEnc u = .next v ∧
      ∀ n, n < s.eng.latch.len.toNat → readByte v.mem (s.eng.latch.addr.toNat + n) =
        readByte t.mem (s.eng.latch.addr.toNat + n) ^^^ (if m ≤ n then d else 0x00#8)

/-! ## The whole machine -/

/-- Every step keeps memory in its canonical form and inside its 2^AW bytes (R14, R60). The canonical form (rising addresses, no byte equal to
what an unlisted address reads as) is the model's choice (log 1). -/
def Obligations.MemoryStaysValid : Prop :=
  ∀ s t : State, s.MemoryValid → step s = .next t → t.MemoryValid

/-- R24, R26, R28: every step keeps the STATUS flags of every instance consistent. -/
def Obligations.FlagsStayConsistent : Prop :=
  ∀ s t : State, s.Every Engine.FlagsConsistent → step s = .next t → t.Every Engine.FlagsConsistent

/-- R43: every step keeps the key-schedule invariant of every instance. -/
def Obligations.KeyScheduleStaysValid : Prop :=
  ∀ s t : State, s.Every Engine.ScheduleValid → step s = .next t → t.Every Engine.ScheduleValid

/-- R45: whenever STREAM_VALID = 1, P is a permutation: so at reset, and every step keeps it at every instance. -/
def Obligations.PermutationStaysValid : Prop :=
  State.reset.Every Engine.PermutationValid ∧
  ∀ s t : State, s.Every Engine.PermutationValid → step s = .next t → t.Every Engine.PermutationValid

/-- R243: every step keeps the footprints in flight of different instances disjoint. -/
def Obligations.FootprintsStayDisjoint : Prop :=
  ∀ s t : State, s.FootprintsDisjoint → step s = .next t → t.FootprintsDisjoint

/-- The invariants hold right after reset, and the parameters are legal there. -/
def Obligations.InvariantsHoldAtReset : Prop :=
  State.reset.MemoryValid ∧ State.reset.Every Engine.FlagsConsistent ∧ State.reset.Every Engine.ScheduleValid ∧
    State.reset.Every Engine.PermutationValid ∧ State.reset.FootprintsDisjoint ∧ State.reset.ParametersLegal

/-- R9, R243: a step changes at most one instance, keeps how many there are, and keeps every parameter. -/
def Obligations.StepChangesOneInstanceAndNoParameter : Prop :=
  ∀ s t : State, step s = .next t →
    t.aw = s.aw ∧ t.engines.length = s.engines.length ∧
    (∃ k : Nat, ∀ j : Nat, j ≠ k → t.engines[j]? = s.engines[j]?) ∧
    (∀ (k : Nat) (e : Engine), s.engines[k]? = some e → ∃ f : Engine, t.engines[k]? = some f ∧
      f.base = e.base ∧ f.hasAes = e.hasAes ∧ f.chainFbInit = e.chainFbInit)

/-- R29, R30, R31, R259: in every step that is no reset, at every instance, KEY_VALID and STREAM_VALID once 1 stay 1; KEY_VALID turns 1 only by
completing AES_KEYINIT, INV_VALID turns 1 only by completing AES_KEYINIT with DEC = 1 and turns 0 only by completing it with
DEC = 0, STREAM_VALID turns 1 only by completing STR_INIT or STR_LOAD. -/
def Obligations.ValidFlagsSetAndClearedAsSpecified : Prop :=
  ∀ (s t : State) (k : Nat) (e f : Engine), (∀ n rest, s.events ≠ .reset n :: rest) → step s = .next t →
    s.engines[k]? = some e → t.engines[k]? = some f →
    (e.keyValid = true → f.keyValid = true) ∧ (e.streamValid = true → f.streamValid = true) ∧
    (e.keyValid = false ∧ f.keyValid = true →
      e.busy = true ∧ f.busy = false ∧ ∃ dec, e.latch.command = .ok (.aesKeyinit dec)) ∧
    (e.invValid = false ∧ f.invValid = true →
      e.busy = true ∧ f.busy = false ∧ e.latch.command = .ok (.aesKeyinit true)) ∧
    (e.invValid = true ∧ f.invValid = false →
      e.busy = true ∧ f.busy = false ∧ e.latch.command = .ok (.aesKeyinit false)) ∧
    (e.streamValid = false ∧ f.streamValid = true →
      e.busy = true ∧ f.busy = false ∧ (e.latch.command = .ok .strInit ∨ e.latch.command = .ok .strLoad))
end

