-- ==== Sys2Proof/Laws/Block.lean ====
section
/-! SUPPORT. Blocks: exclusive-or as a group operation, the register packing and its inverse, and the row shifts. -/

namespace Sys2Proof

@[ext] theorem Block.ext_bytes {a b : Block} (h : a.toBytes = b.toBytes) : a = b := by
  cases a; cases b
  simpa [Block.toBytes] using h

@[simp] theorem Block.xor_zero (a : Block) : a.xor Block.zero = a := by simp [Block.xor, Block.zero]

@[simp] theorem Block.zero_xor (a : Block) : Block.zero.xor a = a := by simp [Block.xor, Block.zero]

@[simp] theorem Block.xor_self (a : Block) : a.xor a = Block.zero := by simp [Block.xor, Block.zero]

theorem Block.xor_comm (a b : Block) : a.xor b = b.xor a := by simp [Block.xor, BitVec.xor_comm]

theorem Block.xor_assoc (a b c : Block) : (a.xor b).xor c = a.xor (b.xor c) := by
  simp [Block.xor, BitVec.xor_assoc]

/-- Adding the same Block twice gives the Block back. -/
@[simp] theorem Block.xor_xor_self (a b : Block) : (a.xor b).xor b = a := by
  rw [Block.xor_assoc, Block.xor_self, Block.xor_zero]

end Sys2Proof

namespace Sys2Proof.Machine

theorem wordByte_wordOfBytes (x0 x1 x2 x3 : Byte) :
    wordByte (wordOfBytes x0 x1 x2 x3) 0 = x0 ∧ wordByte (wordOfBytes x0 x1 x2 x3) 1 = x1 ∧
      wordByte (wordOfBytes x0 x1 x2 x3) 2 = x2 ∧ wordByte (wordOfBytes x0 x1 x2 x3) 3 = x3 := by
  refine ⟨?_, ?_, ?_, ?_⟩ <;>
    (apply BitVec.eq_of_getLsbD_eq; intro i hi
     simp [wordByte, wordOfBytes, hi]) <;> grind

theorem wordOfBytes_wordByte (w : Word) :
    wordOfBytes (wordByte w 0) (wordByte w 1) (wordByte w 2) (wordByte w 3) = w := by
  apply BitVec.eq_of_getLsbD_eq
  intro i hi
  simp only [wordOfBytes, wordByte, BitVec.getLsbD_append, BitVec.getLsbD_extractLsb']
  split
  · simp [*]
  · split
    · rename_i h1 h2
      simp [h2, show 8 + (i - 8) = i by omega]
    · split
      · rename_i h1 h2 h3
        simp [h3, show 16 + (i - 8 - 8) = i by omega]
      · have h4 : i - 8 - 8 - 8 < 8 := by omega
        simp [h4, show 24 + (i - 8 - 8 - 8) = i by omega]

/-- `unblk` is the inverse of `blk` (R13). -/
@[simp] theorem blk_unblk (b : Block) : blk (unblk b) = b := by
  simp [blk, unblk, wordByte_wordOfBytes]

/-- `blk` is the inverse of `unblk` (R13). -/
@[simp] theorem unblk_blk (q : Quad) : unblk (blk q) = q := by
  simp [blk, unblk, wordOfBytes_wordByte]

/-- The row shifts are inverse to each other (R107). -/
@[simp] theorem invShiftRows_shiftRows (b : Block) : invShiftRows (shiftRows b) = b := rfl

@[simp] theorem shiftRows_invShiftRows (b : Block) : shiftRows (invShiftRows b) = b := rfl

end Sys2Proof.Machine
end

