-- ==== Sys2Proof/Laws/Memory.lean ====
section
/-! SUPPORT. Memory: every operation keeps the canonical form and the address bound, a read after a write, and equality from equal reads. -/

namespace Sys2Proof.Machine

/-! ## Cells -/

theorem mem_putCell {a : Nat} {v : Byte} {m : Memory} {c : Host.Cell} (h : c ∈ putCell a v m) :
    c = (a, v) ∨ c ∈ m := by
  unfold putCell at h
  split at h
  · exact .inr h
  · simpa using h

theorem mem_writeByte {m : Memory} {a : Nat} {v : Byte} {c : Host.Cell} (h : c ∈ writeByte m a v) :
    c = (a, v) ∨ c ∈ m := by
  induction m with
  | nil => simpa using mem_putCell h
  | cons d m ih =>
    obtain ⟨b, w⟩ := d
    simp only [writeByte] at h
    split at h
    · exact mem_putCell h
    · split at h
      · exact (mem_putCell h).imp id (List.mem_cons_of_mem _)
      · rcases List.mem_cons.1 h with rfl | h
        · exact .inr List.mem_cons_self
        · exact (ih h).imp id (List.mem_cons_of_mem _)

/-! ## The canonical form -/

theorem Memory.wf_nil : Memory.wf [] := ⟨.nil, by simp⟩

theorem Memory.wf_tail {c : Host.Cell} {m : Memory} (h : Memory.wf (c :: m)) : Memory.wf m :=
  ⟨(List.pairwise_cons.1 h.1).2, fun d hd => h.2 d (List.mem_cons_of_mem _ hd)⟩

theorem Memory.wf_head_lt {c d : Host.Cell} {m : Memory} (h : Memory.wf (c :: m)) (hd : d ∈ m) : c.1 < d.1 :=
  (List.pairwise_cons.1 h.1).1 d hd

theorem Memory.wf_cons {c : Host.Cell} {m : Memory} (hm : Memory.wf m) (hlt : ∀ d ∈ m, c.1 < d.1)
    (hc : c.2 ≠ Config.unlistedByte) : Memory.wf (c :: m) :=
  ⟨List.pairwise_cons.2 ⟨hlt, hm.1⟩, by
    intro d hd
    rcases List.mem_cons.1 hd with rfl | hd
    · exact hc
    · exact hm.2 d hd⟩

theorem putCell_wf {a : Nat} {v : Byte} {m : Memory} (hm : Memory.wf m) (hlt : ∀ d ∈ m, a < d.1) :
    Memory.wf (putCell a v m) := by
  unfold putCell
  split
  · exact hm
  · exact Memory.wf_cons hm hlt ‹_›

/-- Writing a byte keeps the canonical form. -/
theorem writeByte_wf {m : Memory} (hm : Memory.wf m) (a : Nat) (v : Byte) : Memory.wf (writeByte m a v) := by
  induction m with
  | nil => exact putCell_wf hm (by simp)
  | cons d m ih =>
    obtain ⟨b, w⟩ := d
    simp only [writeByte]
    split
    · rename_i hab
      refine putCell_wf hm fun d hd => ?_
      rcases List.mem_cons.1 hd with rfl | hd
      · exact hab
      · exact Nat.lt_trans hab (Memory.wf_head_lt hm hd)
    · split
      · rename_i hab
        subst hab
        exact putCell_wf (Memory.wf_tail hm) fun d hd => Memory.wf_head_lt hm hd
      · refine Memory.wf_cons (ih (Memory.wf_tail hm)) (fun d hd => ?_) (hm.2 _ List.mem_cons_self)
        rcases mem_writeByte hd with rfl | hd
        · simp only; omega
        · exact Memory.wf_head_lt hm hd

/-- Writing bytes keeps the canonical form. -/
theorem writeBytes_wf {m : Memory} (hm : Memory.wf m) (a : Nat) (vs : List Byte) : Memory.wf (writeBytes m a vs) := by
  induction vs generalizing m a with
  | nil => exact hm
  | cons v vs ih => exact ih (writeByte_wf hm a v) (a + 1)

/-- Writing a Block keeps the canonical form. -/
theorem writeBlock_wf {m : Memory} (hm : Memory.wf m) (a : Nat) (b : Block) : Memory.wf (writeBlock m a b) :=
  writeBytes_wf hm a _

/-- Scrambling regions keeps the canonical form. -/
theorem scrambleRegions_wf {m : Memory} (hm : Memory.wf m) (aw d : Nat) (rs : List Region) :
    Memory.wf (scrambleRegions aw d rs m) := by
  induction rs generalizing m with
  | nil => exact hm
  | cons r rs ih => exact ih (writeBytes_wf hm _ _)

/-! ## The address bound -/

/-- Writing a byte inside memory keeps every listed address inside memory. -/
theorem writeByte_within {m : Memory} {aw a : Nat} (hm : Memory.within m aw) (ha : a < 2 ^ aw) (v : Byte) :
    Memory.within (writeByte m a v) aw := by
  intro c hc
  rcases mem_writeByte hc with rfl | hc
  · exact ha
  · exact hm c hc

/-- Writing bytes inside memory keeps every listed address inside memory. -/
theorem writeBytes_within {m : Memory} {aw a : Nat} (hm : Memory.within m aw) (vs : List Byte)
    (ha : a + vs.length ≤ 2 ^ aw) : Memory.within (writeBytes m a vs) aw := by
  induction vs generalizing m a with
  | nil => exact hm
  | cons v vs ih =>
    simp only [List.length_cons] at ha
    exact ih (writeByte_within hm (by omega) v) (by omega)

/-- Scrambling regions keeps every listed address inside memory: bytes that do not exist are left out. -/
theorem scrambleRegions_within {m : Memory} {aw : Nat} (hm : Memory.within m aw) (d : Nat) (rs : List Region) :
    Memory.within (scrambleRegions aw d rs m) aw := by
  induction rs generalizing m with
  | nil => exact hm
  | cons r rs ih =>
    refine ih ?_
    unfold scrambleRegion
    by_cases hr : r.base ≤ 2 ^ aw
    · exact writeBytes_within hm _ (by simp only [freeBytes, List.length_map, List.length_range]; omega)
    · have : min r.size (2 ^ aw - r.base) = 0 := by omega
      rw [this]
      exact hm

/-! ## A read after a write -/

theorem readByte_of_lt {m : Memory} {a : Nat} (h : ∀ d ∈ m, a < d.1) : readByte m a = Config.unlistedByte := by
  induction m with
  | nil => rfl
  | cons d m ih =>
    obtain ⟨b, w⟩ := d
    have hb : a < b := h _ List.mem_cons_self
    simp only [readByte]
    rw [if_neg (by omega)]
    exact ih fun d hd => h d (List.mem_cons_of_mem _ hd)

theorem readByte_putCell {m : Memory} {a b : Nat} {v : Byte} (h : ∀ d ∈ m, a < d.1) :
    readByte (putCell a v m) b = if b = a then v else readByte m b := by
  unfold putCell
  split
  · rename_i hv
    split
    · rename_i hb
      rw [hv, hb, readByte_of_lt h]
    · rfl
  · rfl

/-- A read after a write: the byte written at its address, every other byte as before. -/
theorem readByte_writeByte {m : Memory} (hm : Memory.wf m) (a b : Nat) (v : Byte) :
    readByte (writeByte m a v) b = if b = a then v else readByte m b := by
  induction m with
  | nil => exact readByte_putCell (by simp)
  | cons d m ih =>
    obtain ⟨c, w⟩ := d
    simp only [writeByte]
    split
    · rename_i hac
      refine readByte_putCell fun d hd => ?_
      rcases List.mem_cons.1 hd with rfl | hd
      · exact hac
      · exact Nat.lt_trans hac (Memory.wf_head_lt hm hd)
    · split
      · rename_i hac
        subst hac
        rw [readByte_putCell fun d hd => Memory.wf_head_lt hm hd]
        simp only [readByte]
        split <;> rfl
      · simp only [readByte]
        rw [ih (Memory.wf_tail hm)]
        split
        · rw [if_neg (by omega)]
        · rfl

/-- A read after a write of bytes. -/
theorem readByte_writeBytes {m : Memory} (hm : Memory.wf m) (a b : Nat) (vs : List Byte) :
    readByte (writeBytes m a vs) b =
      if a ≤ b ∧ b < a + vs.length then vs.getD (b - a) 0x00#8 else readByte m b := by
  induction vs generalizing m a with
  | nil => rw [if_neg (by simp)]; rfl
  | cons v vs ih =>
    simp only [writeBytes, List.length_cons]
    rw [ih (writeByte_wf hm a v), readByte_writeByte hm]
    by_cases hb : b = a
    · subst hb
      rw [if_neg (by omega), if_pos rfl, if_pos (by omega)]
      simp
    · by_cases h : a + 1 ≤ b ∧ b < a + 1 + vs.length
      · rw [if_pos h, if_pos (by omega)]
        have : b - a = (b - (a + 1)) + 1 := by omega
        rw [this, List.getD_cons_succ]
      · rw [if_neg h, if_neg hb, if_neg (by omega)]

/-- A byte outside the written range reads as before. -/
theorem readByte_writeBytes_other {m : Memory} (hm : Memory.wf m) {a b : Nat} {vs : List Byte}
    (h : b < a ∨ a + vs.length ≤ b) : readByte (writeBytes m a vs) b = readByte m b := by
  rw [readByte_writeBytes hm, if_neg (by omega)]

@[simp] theorem Block.length_toBytes (b : Block) : b.toBytes.length = 16 := rfl

/-- A byte outside a written Block reads as before. -/
theorem readByte_writeBlock_other {m : Memory} (hm : Memory.wf m) {a b : Nat} {x : Block}
    (h : b < a ∨ a + 16 ≤ b) : readByte (writeBlock m a x) b = readByte m b :=
  readByte_writeBytes_other hm (by simpa using h)

/-- A Block read after it is written. -/
theorem readBlock_writeBlock {m : Memory} (hm : Memory.wf m) (a : Nat) (x : Block) :
    readBlock (writeBlock m a x) a = x := by
  simp [readBlock, writeBlock, readByte_writeBytes hm, Block.toBytes]

/-- A Block of untouched bytes reads as before. -/
theorem readBlock_congr {m m' : Memory} {a : Nat} (h : ∀ b, a ≤ b → b < a + 16 → readByte m' b = readByte m b) :
    readBlock m' a = readBlock m a := by
  simp only [readBlock]
  rw [h a (by omega) (by omega), h (a + 1) (by omega) (by omega), h (a + 2) (by omega) (by omega),
    h (a + 3) (by omega) (by omega), h (a + 4) (by omega) (by omega), h (a + 5) (by omega) (by omega),
    h (a + 6) (by omega) (by omega), h (a + 7) (by omega) (by omega), h (a + 8) (by omega) (by omega),
    h (a + 9) (by omega) (by omega), h (a + 10) (by omega) (by omega), h (a + 11) (by omega) (by omega),
    h (a + 12) (by omega) (by omega), h (a + 13) (by omega) (by omega), h (a + 14) (by omega) (by omega),
    h (a + 15) (by omega) (by omega)]

/-! ## Byte sequences -/

@[simp] theorem length_readBytes (m : Memory) (a n : Nat) : (readBytes m a n).length = n := by
  induction n generalizing a with
  | zero => rfl
  | succ n ih => simp [readBytes, ih]

/-- Element k of a byte sequence read from memory. -/
theorem getD_readBytes (m : Memory) (a n k : Nat) (v : Byte) (h : k < n) :
    (readBytes m a n).getD k v = readByte m (a + k) := by
  induction n generalizing a k with
  | zero => omega
  | succ n ih =>
    cases k with
    | zero => simp [readBytes]
    | succ k =>
      simp only [readBytes, List.getD_cons_succ]
      rw [ih (a + 1) k (by omega)]
      congr 1
      omega

/-! ## Equal memories are equal data -/

/-- Two memories in canonical form that read the same at every address are the same list. -/
theorem Memory.eq_of_readByte {m m' : Memory} (hm : Memory.wf m) (hm' : Memory.wf m')
    (h : ∀ a, readByte m a = readByte m' a) : m = m' := by
  induction m generalizing m' with
  | nil =>
    cases m' with
    | nil => rfl
    | cons d m' =>
      have := h d.1
      simp only [readByte, if_true] at this
      exact absurd this.symm (hm'.2 d List.mem_cons_self)
  | cons c m ih =>
    obtain ⟨a, v⟩ := c
    cases m' with
    | nil =>
      have := h a
      simp only [readByte, if_true] at this
      exact absurd this (hm.2 _ List.mem_cons_self)
    | cons d m' =>
      obtain ⟨b, w⟩ := d
      have hv : v ≠ Config.unlistedByte := hm.2 _ List.mem_cons_self
      have hw : w ≠ Config.unlistedByte := hm'.2 _ List.mem_cons_self
      have hlt : ∀ d ∈ m, a < d.1 := fun d hd => Memory.wf_head_lt hm hd
      have hlt' : ∀ d ∈ m', b < d.1 := fun d hd => Memory.wf_head_lt hm' hd
      have hab : a = b := by
        rcases Nat.lt_trichotomy a b with hab | hab | hab
        · have := h a
          simp only [readByte, if_true] at this
          rw [if_neg (by omega), readByte_of_lt fun d hd => Nat.lt_trans hab (hlt' d hd)] at this
          exact absurd this hv
        · exact hab
        · have := h b
          simp only [readByte, if_true] at this
          rw [if_neg (by omega), readByte_of_lt fun d hd => Nat.lt_trans hab (hlt d hd)] at this
          exact absurd this.symm hw
      subst hab
      have hvw : v = w := by
        have := h a
        simpa only [readByte, if_true] using this
      subst hvw
      congr 1
      refine ih (Memory.wf_tail hm) (Memory.wf_tail hm') fun x => ?_
      by_cases hx : x = a
      · subst hx
        rw [readByte_of_lt hlt, readByte_of_lt hlt']
      · have := h x
        simpa only [readByte, if_neg hx] using this

end Sys2Proof.Machine
end

