-- ==== Sys2Proof/Laws/State.lean ====
section
/-! SUPPORT. One lemma per field per update of Engine and State, each true by rfl, so that no proof unfolds a record update. -/

namespace Sys2Proof.Machine

/-! ### Engine.flagsAtLaunch -/

@[simp] theorem Engine.flagsAtLaunch_base (e : Engine) : (e.flagsAtLaunch).base = e.base := rfl
@[simp] theorem Engine.flagsAtLaunch_hasAes (e : Engine) : (e.flagsAtLaunch).hasAes = e.hasAes := rfl
@[simp] theorem Engine.flagsAtLaunch_chainFbInit (e : Engine) : (e.flagsAtLaunch).chainFbInit = e.chainFbInit := rfl
@[simp] theorem Engine.flagsAtLaunch_ie (e : Engine) : (e.flagsAtLaunch).ie = e.ie := rfl
@[simp] theorem Engine.flagsAtLaunch_busy (e : Engine) : (e.flagsAtLaunch).busy = true := rfl
@[simp] theorem Engine.flagsAtLaunch_done (e : Engine) : (e.flagsAtLaunch).done = false := rfl
@[simp] theorem Engine.flagsAtLaunch_err (e : Engine) : (e.flagsAtLaunch).err = false := rfl
@[simp] theorem Engine.flagsAtLaunch_ovr (e : Engine) : (e.flagsAtLaunch).ovr = e.ovr := rfl
@[simp] theorem Engine.flagsAtLaunch_errcode (e : Engine) : (e.flagsAtLaunch).errcode = .none := rfl
@[simp] theorem Engine.flagsAtLaunch_keyValid (e : Engine) : (e.flagsAtLaunch).keyValid = e.keyValid := rfl
@[simp] theorem Engine.flagsAtLaunch_invValid (e : Engine) : (e.flagsAtLaunch).invValid = e.invValid := rfl
@[simp] theorem Engine.flagsAtLaunch_streamValid (e : Engine) : (e.flagsAtLaunch).streamValid = e.streamValid := rfl
@[simp] theorem Engine.flagsAtLaunch_addr (e : Engine) : (e.flagsAtLaunch).addr = e.addr := rfl
@[simp] theorem Engine.flagsAtLaunch_len (e : Engine) : (e.flagsAtLaunch).len = e.len := rfl
@[simp] theorem Engine.flagsAtLaunch_kaddr (e : Engine) : (e.flagsAtLaunch).kaddr = e.kaddr := rfl
@[simp] theorem Engine.flagsAtLaunch_klen (e : Engine) : (e.flagsAtLaunch).klen = e.klen := rfl
@[simp] theorem Engine.flagsAtLaunch_key (e : Engine) : (e.flagsAtLaunch).key = e.key := rfl
@[simp] theorem Engine.flagsAtLaunch_din (e : Engine) : (e.flagsAtLaunch).din = e.din := rfl
@[simp] theorem Engine.flagsAtLaunch_dout (e : Engine) : (e.flagsAtLaunch).dout = e.dout := rfl
@[simp] theorem Engine.flagsAtLaunch_rkin (e : Engine) : (e.flagsAtLaunch).rkin = e.rkin := rfl
@[simp] theorem Engine.flagsAtLaunch_rks (e : Engine) : (e.flagsAtLaunch).rks = e.rks := rfl
@[simp] theorem Engine.flagsAtLaunch_gen (e : Engine) : (e.flagsAtLaunch).gen = e.gen := rfl
@[simp] theorem Engine.flagsAtLaunch_latch (e : Engine) : (e.flagsAtLaunch).latch = e.latch := rfl

/-! ### Engine.flagsAtError -/

@[simp] theorem Engine.flagsAtError_base (e : Engine) (c : ErrCode) : (e.flagsAtError c).base = e.base := rfl
@[simp] theorem Engine.flagsAtError_hasAes (e : Engine) (c : ErrCode) : (e.flagsAtError c).hasAes = e.hasAes := rfl
@[simp] theorem Engine.flagsAtError_chainFbInit (e : Engine) (c : ErrCode) : (e.flagsAtError c).chainFbInit = e.chainFbInit := rfl
@[simp] theorem Engine.flagsAtError_ie (e : Engine) (c : ErrCode) : (e.flagsAtError c).ie = e.ie := rfl
@[simp] theorem Engine.flagsAtError_busy (e : Engine) (c : ErrCode) : (e.flagsAtError c).busy = false := rfl
@[simp] theorem Engine.flagsAtError_done (e : Engine) (c : ErrCode) : (e.flagsAtError c).done = e.done := rfl
@[simp] theorem Engine.flagsAtError_err (e : Engine) (c : ErrCode) : (e.flagsAtError c).err = true := rfl
@[simp] theorem Engine.flagsAtError_ovr (e : Engine) (c : ErrCode) : (e.flagsAtError c).ovr = e.ovr := rfl
@[simp] theorem Engine.flagsAtError_errcode (e : Engine) (c : ErrCode) : (e.flagsAtError c).errcode = c := rfl
@[simp] theorem Engine.flagsAtError_keyValid (e : Engine) (c : ErrCode) : (e.flagsAtError c).keyValid = e.keyValid := rfl
@[simp] theorem Engine.flagsAtError_invValid (e : Engine) (c : ErrCode) : (e.flagsAtError c).invValid = e.invValid := rfl
@[simp] theorem Engine.flagsAtError_streamValid (e : Engine) (c : ErrCode) : (e.flagsAtError c).streamValid = e.streamValid := rfl
@[simp] theorem Engine.flagsAtError_addr (e : Engine) (c : ErrCode) : (e.flagsAtError c).addr = e.addr := rfl
@[simp] theorem Engine.flagsAtError_len (e : Engine) (c : ErrCode) : (e.flagsAtError c).len = e.len := rfl
@[simp] theorem Engine.flagsAtError_kaddr (e : Engine) (c : ErrCode) : (e.flagsAtError c).kaddr = e.kaddr := rfl
@[simp] theorem Engine.flagsAtError_klen (e : Engine) (c : ErrCode) : (e.flagsAtError c).klen = e.klen := rfl
@[simp] theorem Engine.flagsAtError_key (e : Engine) (c : ErrCode) : (e.flagsAtError c).key = e.key := rfl
@[simp] theorem Engine.flagsAtError_din (e : Engine) (c : ErrCode) : (e.flagsAtError c).din = e.din := rfl
@[simp] theorem Engine.flagsAtError_dout (e : Engine) (c : ErrCode) : (e.flagsAtError c).dout = e.dout := rfl
@[simp] theorem Engine.flagsAtError_rkin (e : Engine) (c : ErrCode) : (e.flagsAtError c).rkin = e.rkin := rfl
@[simp] theorem Engine.flagsAtError_rks (e : Engine) (c : ErrCode) : (e.flagsAtError c).rks = e.rks := rfl
@[simp] theorem Engine.flagsAtError_gen (e : Engine) (c : ErrCode) : (e.flagsAtError c).gen = e.gen := rfl
@[simp] theorem Engine.flagsAtError_latch (e : Engine) (c : ErrCode) : (e.flagsAtError c).latch = e.latch := rfl

/-! ### Engine.flagsAtFinish -/

@[simp] theorem Engine.flagsAtFinish_base (e : Engine) : (e.flagsAtFinish).base = e.base := rfl
@[simp] theorem Engine.flagsAtFinish_hasAes (e : Engine) : (e.flagsAtFinish).hasAes = e.hasAes := rfl
@[simp] theorem Engine.flagsAtFinish_chainFbInit (e : Engine) : (e.flagsAtFinish).chainFbInit = e.chainFbInit := rfl
@[simp] theorem Engine.flagsAtFinish_ie (e : Engine) : (e.flagsAtFinish).ie = e.ie := rfl
@[simp] theorem Engine.flagsAtFinish_busy (e : Engine) : (e.flagsAtFinish).busy = false := rfl
@[simp] theorem Engine.flagsAtFinish_done (e : Engine) : (e.flagsAtFinish).done = true := rfl
@[simp] theorem Engine.flagsAtFinish_err (e : Engine) : (e.flagsAtFinish).err = e.err := rfl
@[simp] theorem Engine.flagsAtFinish_ovr (e : Engine) : (e.flagsAtFinish).ovr = e.ovr := rfl
@[simp] theorem Engine.flagsAtFinish_errcode (e : Engine) : (e.flagsAtFinish).errcode = e.errcode := rfl
@[simp] theorem Engine.flagsAtFinish_keyValid (e : Engine) : (e.flagsAtFinish).keyValid = e.keyValid := rfl
@[simp] theorem Engine.flagsAtFinish_invValid (e : Engine) : (e.flagsAtFinish).invValid = e.invValid := rfl
@[simp] theorem Engine.flagsAtFinish_streamValid (e : Engine) : (e.flagsAtFinish).streamValid = e.streamValid := rfl
@[simp] theorem Engine.flagsAtFinish_addr (e : Engine) : (e.flagsAtFinish).addr = e.addr := rfl
@[simp] theorem Engine.flagsAtFinish_len (e : Engine) : (e.flagsAtFinish).len = e.len := rfl
@[simp] theorem Engine.flagsAtFinish_kaddr (e : Engine) : (e.flagsAtFinish).kaddr = e.kaddr := rfl
@[simp] theorem Engine.flagsAtFinish_klen (e : Engine) : (e.flagsAtFinish).klen = e.klen := rfl
@[simp] theorem Engine.flagsAtFinish_key (e : Engine) : (e.flagsAtFinish).key = e.key := rfl
@[simp] theorem Engine.flagsAtFinish_din (e : Engine) : (e.flagsAtFinish).din = e.din := rfl
@[simp] theorem Engine.flagsAtFinish_dout (e : Engine) : (e.flagsAtFinish).dout = e.dout := rfl
@[simp] theorem Engine.flagsAtFinish_rkin (e : Engine) : (e.flagsAtFinish).rkin = e.rkin := rfl
@[simp] theorem Engine.flagsAtFinish_rks (e : Engine) : (e.flagsAtFinish).rks = e.rks := rfl
@[simp] theorem Engine.flagsAtFinish_gen (e : Engine) : (e.flagsAtFinish).gen = e.gen := rfl
@[simp] theorem Engine.flagsAtFinish_latch (e : Engine) : (e.flagsAtFinish).latch = e.latch := rfl

/-! ### Engine.setOverrun -/

@[simp] theorem Engine.setOverrun_base (e : Engine) : (e.setOverrun).base = e.base := rfl
@[simp] theorem Engine.setOverrun_hasAes (e : Engine) : (e.setOverrun).hasAes = e.hasAes := rfl
@[simp] theorem Engine.setOverrun_chainFbInit (e : Engine) : (e.setOverrun).chainFbInit = e.chainFbInit := rfl
@[simp] theorem Engine.setOverrun_ie (e : Engine) : (e.setOverrun).ie = e.ie := rfl
@[simp] theorem Engine.setOverrun_busy (e : Engine) : (e.setOverrun).busy = e.busy := rfl
@[simp] theorem Engine.setOverrun_done (e : Engine) : (e.setOverrun).done = e.done := rfl
@[simp] theorem Engine.setOverrun_err (e : Engine) : (e.setOverrun).err = e.err := rfl
@[simp] theorem Engine.setOverrun_ovr (e : Engine) : (e.setOverrun).ovr = true := rfl
@[simp] theorem Engine.setOverrun_errcode (e : Engine) : (e.setOverrun).errcode = e.errcode := rfl
@[simp] theorem Engine.setOverrun_keyValid (e : Engine) : (e.setOverrun).keyValid = e.keyValid := rfl
@[simp] theorem Engine.setOverrun_invValid (e : Engine) : (e.setOverrun).invValid = e.invValid := rfl
@[simp] theorem Engine.setOverrun_streamValid (e : Engine) : (e.setOverrun).streamValid = e.streamValid := rfl
@[simp] theorem Engine.setOverrun_addr (e : Engine) : (e.setOverrun).addr = e.addr := rfl
@[simp] theorem Engine.setOverrun_len (e : Engine) : (e.setOverrun).len = e.len := rfl
@[simp] theorem Engine.setOverrun_kaddr (e : Engine) : (e.setOverrun).kaddr = e.kaddr := rfl
@[simp] theorem Engine.setOverrun_klen (e : Engine) : (e.setOverrun).klen = e.klen := rfl
@[simp] theorem Engine.setOverrun_key (e : Engine) : (e.setOverrun).key = e.key := rfl
@[simp] theorem Engine.setOverrun_din (e : Engine) : (e.setOverrun).din = e.din := rfl
@[simp] theorem Engine.setOverrun_dout (e : Engine) : (e.setOverrun).dout = e.dout := rfl
@[simp] theorem Engine.setOverrun_rkin (e : Engine) : (e.setOverrun).rkin = e.rkin := rfl
@[simp] theorem Engine.setOverrun_rks (e : Engine) : (e.setOverrun).rks = e.rks := rfl
@[simp] theorem Engine.setOverrun_gen (e : Engine) : (e.setOverrun).gen = e.gen := rfl
@[simp] theorem Engine.setOverrun_latch (e : Engine) : (e.setOverrun).latch = e.latch := rfl

/-! ### Engine.writeCtrl -/

@[simp] theorem Engine.writeCtrl_base (e : Engine) (v : Word) : (e.writeCtrl v).base = e.base := rfl
@[simp] theorem Engine.writeCtrl_hasAes (e : Engine) (v : Word) : (e.writeCtrl v).hasAes = e.hasAes := rfl
@[simp] theorem Engine.writeCtrl_chainFbInit (e : Engine) (v : Word) : (e.writeCtrl v).chainFbInit = e.chainFbInit := rfl
@[simp] theorem Engine.writeCtrl_ie (e : Engine) (v : Word) : (e.writeCtrl v).ie = v.getLsbD 0 := rfl
@[simp] theorem Engine.writeCtrl_busy (e : Engine) (v : Word) : (e.writeCtrl v).busy = e.busy := rfl
@[simp] theorem Engine.writeCtrl_done (e : Engine) (v : Word) : (e.writeCtrl v).done = e.done := rfl
@[simp] theorem Engine.writeCtrl_err (e : Engine) (v : Word) : (e.writeCtrl v).err = e.err := rfl
@[simp] theorem Engine.writeCtrl_ovr (e : Engine) (v : Word) : (e.writeCtrl v).ovr = e.ovr := rfl
@[simp] theorem Engine.writeCtrl_errcode (e : Engine) (v : Word) : (e.writeCtrl v).errcode = e.errcode := rfl
@[simp] theorem Engine.writeCtrl_keyValid (e : Engine) (v : Word) : (e.writeCtrl v).keyValid = e.keyValid := rfl
@[simp] theorem Engine.writeCtrl_invValid (e : Engine) (v : Word) : (e.writeCtrl v).invValid = e.invValid := rfl
@[simp] theorem Engine.writeCtrl_streamValid (e : Engine) (v : Word) : (e.writeCtrl v).streamValid = e.streamValid := rfl
@[simp] theorem Engine.writeCtrl_addr (e : Engine) (v : Word) : (e.writeCtrl v).addr = e.addr := rfl
@[simp] theorem Engine.writeCtrl_len (e : Engine) (v : Word) : (e.writeCtrl v).len = e.len := rfl
@[simp] theorem Engine.writeCtrl_kaddr (e : Engine) (v : Word) : (e.writeCtrl v).kaddr = e.kaddr := rfl
@[simp] theorem Engine.writeCtrl_klen (e : Engine) (v : Word) : (e.writeCtrl v).klen = e.klen := rfl
@[simp] theorem Engine.writeCtrl_key (e : Engine) (v : Word) : (e.writeCtrl v).key = e.key := rfl
@[simp] theorem Engine.writeCtrl_din (e : Engine) (v : Word) : (e.writeCtrl v).din = e.din := rfl
@[simp] theorem Engine.writeCtrl_dout (e : Engine) (v : Word) : (e.writeCtrl v).dout = e.dout := rfl
@[simp] theorem Engine.writeCtrl_rkin (e : Engine) (v : Word) : (e.writeCtrl v).rkin = e.rkin := rfl
@[simp] theorem Engine.writeCtrl_rks (e : Engine) (v : Word) : (e.writeCtrl v).rks = e.rks := rfl
@[simp] theorem Engine.writeCtrl_gen (e : Engine) (v : Word) : (e.writeCtrl v).gen = e.gen := rfl
@[simp] theorem Engine.writeCtrl_latch (e : Engine) (v : Word) : (e.writeCtrl v).latch = e.latch := rfl

/-! ### Engine.writeStatus -/

@[simp] theorem Engine.writeStatus_base (e : Engine) (v : Word) : (e.writeStatus v).base = e.base := rfl
@[simp] theorem Engine.writeStatus_hasAes (e : Engine) (v : Word) : (e.writeStatus v).hasAes = e.hasAes := rfl
@[simp] theorem Engine.writeStatus_chainFbInit (e : Engine) (v : Word) : (e.writeStatus v).chainFbInit = e.chainFbInit := rfl
@[simp] theorem Engine.writeStatus_ie (e : Engine) (v : Word) : (e.writeStatus v).ie = e.ie := rfl
@[simp] theorem Engine.writeStatus_busy (e : Engine) (v : Word) : (e.writeStatus v).busy = e.busy := rfl
@[simp] theorem Engine.writeStatus_done (e : Engine) (v : Word) : (e.writeStatus v).done = (e.done && !v.getLsbD 1) := rfl
@[simp] theorem Engine.writeStatus_err (e : Engine) (v : Word) : (e.writeStatus v).err = (e.err && !v.getLsbD 2) := rfl
@[simp] theorem Engine.writeStatus_ovr (e : Engine) (v : Word) : (e.writeStatus v).ovr = (e.ovr && !v.getLsbD 3) := rfl
@[simp] theorem Engine.writeStatus_errcode (e : Engine) (v : Word) : (e.writeStatus v).errcode = (if v.getLsbD 2 then .none else e.errcode) := rfl
@[simp] theorem Engine.writeStatus_keyValid (e : Engine) (v : Word) : (e.writeStatus v).keyValid = e.keyValid := rfl
@[simp] theorem Engine.writeStatus_invValid (e : Engine) (v : Word) : (e.writeStatus v).invValid = e.invValid := rfl
@[simp] theorem Engine.writeStatus_streamValid (e : Engine) (v : Word) : (e.writeStatus v).streamValid = e.streamValid := rfl
@[simp] theorem Engine.writeStatus_addr (e : Engine) (v : Word) : (e.writeStatus v).addr = e.addr := rfl
@[simp] theorem Engine.writeStatus_len (e : Engine) (v : Word) : (e.writeStatus v).len = e.len := rfl
@[simp] theorem Engine.writeStatus_kaddr (e : Engine) (v : Word) : (e.writeStatus v).kaddr = e.kaddr := rfl
@[simp] theorem Engine.writeStatus_klen (e : Engine) (v : Word) : (e.writeStatus v).klen = e.klen := rfl
@[simp] theorem Engine.writeStatus_key (e : Engine) (v : Word) : (e.writeStatus v).key = e.key := rfl
@[simp] theorem Engine.writeStatus_din (e : Engine) (v : Word) : (e.writeStatus v).din = e.din := rfl
@[simp] theorem Engine.writeStatus_dout (e : Engine) (v : Word) : (e.writeStatus v).dout = e.dout := rfl
@[simp] theorem Engine.writeStatus_rkin (e : Engine) (v : Word) : (e.writeStatus v).rkin = e.rkin := rfl
@[simp] theorem Engine.writeStatus_rks (e : Engine) (v : Word) : (e.writeStatus v).rks = e.rks := rfl
@[simp] theorem Engine.writeStatus_gen (e : Engine) (v : Word) : (e.writeStatus v).gen = e.gen := rfl
@[simp] theorem Engine.writeStatus_latch (e : Engine) (v : Word) : (e.writeStatus v).latch = e.latch := rfl

/-! ### raiseError -/

@[simp] theorem raiseError_aw (c : ErrCode) (s : State) : (raiseError c s).aw = s.aw := rfl
@[simp] theorem raiseError_left (c : ErrCode) (s : State) : (raiseError c s).left = s.left := rfl
@[simp] theorem raiseError_eng (c : ErrCode) (s : State) : (raiseError c s).eng = s.eng.flagsAtError c := rfl
@[simp] theorem raiseError_right (c : ErrCode) (s : State) : (raiseError c s).right = s.right := rfl
@[simp] theorem raiseError_mem (c : ErrCode) (s : State) : (raiseError c s).mem = s.mem := rfl
@[simp] theorem raiseError_refusedMem (c : ErrCode) (s : State) : (raiseError c s).refusedMem = s.refusedMem := rfl
@[simp] theorem raiseError_deviceMem (c : ErrCode) (s : State) : (raiseError c s).deviceMem = s.deviceMem := rfl
@[simp] theorem raiseError_events (c : ErrCode) (s : State) : (raiseError c s).events = s.events := rfl
@[simp] theorem raiseError_rdata (c : ErrCode) (s : State) : (raiseError c s).rdata = s.rdata := rfl
@[simp] theorem raiseError_mdata (c : ErrCode) (s : State) : (raiseError c s).mdata = s.mdata := rfl
@[simp] theorem raiseError_draws (c : ErrCode) (s : State) : (raiseError c s).draws = s.draws := rfl

/-! ### finish -/

@[simp] theorem finish_aw (s : State) : (finish s).aw = s.aw := rfl
@[simp] theorem finish_left (s : State) : (finish s).left = s.left := rfl
@[simp] theorem finish_eng (s : State) : (finish s).eng = s.eng.flagsAtFinish := rfl
@[simp] theorem finish_right (s : State) : (finish s).right = s.right := rfl
@[simp] theorem finish_mem (s : State) : (finish s).mem = s.mem := rfl
@[simp] theorem finish_refusedMem (s : State) : (finish s).refusedMem = s.refusedMem := rfl
@[simp] theorem finish_deviceMem (s : State) : (finish s).deviceMem = s.deviceMem := rfl
@[simp] theorem finish_events (s : State) : (finish s).events = s.events := rfl
@[simp] theorem finish_rdata (s : State) : (finish s).rdata = s.rdata := rfl
@[simp] theorem finish_mdata (s : State) : (finish s).mdata = s.mdata := rfl
@[simp] theorem finish_draws (s : State) : (finish s).draws = s.draws := rfl

/-! ### setDout -/

@[simp] theorem setDout_aw (b : Block) (s : State) : (setDout b s).aw = s.aw := rfl
@[simp] theorem setDout_left (b : Block) (s : State) : (setDout b s).left = s.left := rfl
@[simp] theorem setDout_eng (b : Block) (s : State) : (setDout b s).eng = { s.eng with dout := unblk b } := rfl
@[simp] theorem setDout_right (b : Block) (s : State) : (setDout b s).right = s.right := rfl
@[simp] theorem setDout_mem (b : Block) (s : State) : (setDout b s).mem = s.mem := rfl
@[simp] theorem setDout_refusedMem (b : Block) (s : State) : (setDout b s).refusedMem = s.refusedMem := rfl
@[simp] theorem setDout_deviceMem (b : Block) (s : State) : (setDout b s).deviceMem = s.deviceMem := rfl
@[simp] theorem setDout_events (b : Block) (s : State) : (setDout b s).events = s.events := rfl
@[simp] theorem setDout_rdata (b : Block) (s : State) : (setDout b s).rdata = s.rdata := rfl
@[simp] theorem setDout_mdata (b : Block) (s : State) : (setDout b s).mdata = s.mdata := rfl
@[simp] theorem setDout_draws (b : Block) (s : State) : (setDout b s).draws = s.draws := rfl

/-! ### setMem -/

@[simp] theorem setMem_aw (m : Memory) (s : State) : (setMem m s).aw = s.aw := rfl
@[simp] theorem setMem_left (m : Memory) (s : State) : (setMem m s).left = s.left := rfl
@[simp] theorem setMem_eng (m : Memory) (s : State) : (setMem m s).eng = s.eng := rfl
@[simp] theorem setMem_right (m : Memory) (s : State) : (setMem m s).right = s.right := rfl
@[simp] theorem setMem_mem (m : Memory) (s : State) : (setMem m s).mem = m := rfl
@[simp] theorem setMem_refusedMem (m : Memory) (s : State) : (setMem m s).refusedMem = s.refusedMem := rfl
@[simp] theorem setMem_deviceMem (m : Memory) (s : State) : (setMem m s).deviceMem = s.deviceMem := rfl
@[simp] theorem setMem_events (m : Memory) (s : State) : (setMem m s).events = s.events := rfl
@[simp] theorem setMem_rdata (m : Memory) (s : State) : (setMem m s).rdata = s.rdata := rfl
@[simp] theorem setMem_mdata (m : Memory) (s : State) : (setMem m s).mdata = s.mdata := rfl
@[simp] theorem setMem_draws (m : Memory) (s : State) : (setMem m s).draws = s.draws := rfl

/-! ### setGen -/

@[simp] theorem setGen_aw (g : Generator) (s : State) : (setGen g s).aw = s.aw := rfl
@[simp] theorem setGen_left (g : Generator) (s : State) : (setGen g s).left = s.left := rfl
@[simp] theorem setGen_eng (g : Generator) (s : State) : (setGen g s).eng = { s.eng with gen := g } := rfl
@[simp] theorem setGen_right (g : Generator) (s : State) : (setGen g s).right = s.right := rfl
@[simp] theorem setGen_mem (g : Generator) (s : State) : (setGen g s).mem = s.mem := rfl
@[simp] theorem setGen_refusedMem (g : Generator) (s : State) : (setGen g s).refusedMem = s.refusedMem := rfl
@[simp] theorem setGen_deviceMem (g : Generator) (s : State) : (setGen g s).deviceMem = s.deviceMem := rfl
@[simp] theorem setGen_events (g : Generator) (s : State) : (setGen g s).events = s.events := rfl
@[simp] theorem setGen_rdata (g : Generator) (s : State) : (setGen g s).rdata = s.rdata := rfl
@[simp] theorem setGen_mdata (g : Generator) (s : State) : (setGen g s).mdata = s.mdata := rfl
@[simp] theorem setGen_draws (g : Generator) (s : State) : (setGen g s).draws = s.draws := rfl

/-! ### setStreamValid -/

@[simp] theorem setStreamValid_aw (s : State) : (setStreamValid s).aw = s.aw := rfl
@[simp] theorem setStreamValid_left (s : State) : (setStreamValid s).left = s.left := rfl
@[simp] theorem setStreamValid_eng (s : State) : (setStreamValid s).eng = { s.eng with streamValid := true } := rfl
@[simp] theorem setStreamValid_right (s : State) : (setStreamValid s).right = s.right := rfl
@[simp] theorem setStreamValid_mem (s : State) : (setStreamValid s).mem = s.mem := rfl
@[simp] theorem setStreamValid_refusedMem (s : State) : (setStreamValid s).refusedMem = s.refusedMem := rfl
@[simp] theorem setStreamValid_deviceMem (s : State) : (setStreamValid s).deviceMem = s.deviceMem := rfl
@[simp] theorem setStreamValid_events (s : State) : (setStreamValid s).events = s.events := rfl
@[simp] theorem setStreamValid_rdata (s : State) : (setStreamValid s).rdata = s.rdata := rfl
@[simp] theorem setStreamValid_mdata (s : State) : (setStreamValid s).mdata = s.mdata := rfl
@[simp] theorem setStreamValid_draws (s : State) : (setStreamValid s).draws = s.draws := rfl

/-! ### loadKey -/

@[simp] theorem loadKey_aw (dec : Bool) (s : State) : (loadKey dec s).aw = s.aw := rfl
@[simp] theorem loadKey_left (dec : Bool) (s : State) : (loadKey dec s).left = s.left := rfl
@[simp] theorem loadKey_eng (dec : Bool) (s : State) : (loadKey dec s).eng = { s.eng with rks := keySchedule s.eng.latch.key dec s.draws, keyValid := true, invValid := dec } := rfl
@[simp] theorem loadKey_right (dec : Bool) (s : State) : (loadKey dec s).right = s.right := rfl
@[simp] theorem loadKey_mem (dec : Bool) (s : State) : (loadKey dec s).mem = s.mem := rfl
@[simp] theorem loadKey_refusedMem (dec : Bool) (s : State) : (loadKey dec s).refusedMem = s.refusedMem := rfl
@[simp] theorem loadKey_deviceMem (dec : Bool) (s : State) : (loadKey dec s).deviceMem = s.deviceMem := rfl
@[simp] theorem loadKey_events (dec : Bool) (s : State) : (loadKey dec s).events = s.events := rfl
@[simp] theorem loadKey_rdata (dec : Bool) (s : State) : (loadKey dec s).rdata = s.rdata := rfl
@[simp] theorem loadKey_mdata (dec : Bool) (s : State) : (loadKey dec s).mdata = s.mdata := rfl
@[simp] theorem loadKey_draws (dec : Bool) (s : State) : (loadKey dec s).draws = s.draws + keyinitDraws dec := rfl

/-! ### launchEngine: the latch, and the flags as at a launch -/

@[simp] theorem launchEngine_base (e : Engine) (w : Word) : (launchEngine e w).base = e.base := rfl
@[simp] theorem launchEngine_hasAes (e : Engine) (w : Word) : (launchEngine e w).hasAes = e.hasAes := rfl
@[simp] theorem launchEngine_chainFbInit (e : Engine) (w : Word) : (launchEngine e w).chainFbInit = e.chainFbInit := rfl
@[simp] theorem launchEngine_ie (e : Engine) (w : Word) : (launchEngine e w).ie = e.ie := rfl
@[simp] theorem launchEngine_busy (e : Engine) (w : Word) : (launchEngine e w).busy = true := rfl
@[simp] theorem launchEngine_done (e : Engine) (w : Word) : (launchEngine e w).done = false := rfl
@[simp] theorem launchEngine_err (e : Engine) (w : Word) : (launchEngine e w).err = false := rfl
@[simp] theorem launchEngine_ovr (e : Engine) (w : Word) : (launchEngine e w).ovr = e.ovr := rfl
@[simp] theorem launchEngine_errcode (e : Engine) (w : Word) : (launchEngine e w).errcode = .none := rfl
@[simp] theorem launchEngine_keyValid (e : Engine) (w : Word) : (launchEngine e w).keyValid = e.keyValid := rfl
@[simp] theorem launchEngine_invValid (e : Engine) (w : Word) : (launchEngine e w).invValid = e.invValid := rfl
@[simp] theorem launchEngine_streamValid (e : Engine) (w : Word) : (launchEngine e w).streamValid = e.streamValid := rfl
@[simp] theorem launchEngine_addr (e : Engine) (w : Word) : (launchEngine e w).addr = e.addr := rfl
@[simp] theorem launchEngine_len (e : Engine) (w : Word) : (launchEngine e w).len = e.len := rfl
@[simp] theorem launchEngine_kaddr (e : Engine) (w : Word) : (launchEngine e w).kaddr = e.kaddr := rfl
@[simp] theorem launchEngine_klen (e : Engine) (w : Word) : (launchEngine e w).klen = e.klen := rfl
@[simp] theorem launchEngine_key (e : Engine) (w : Word) : (launchEngine e w).key = e.key := rfl
@[simp] theorem launchEngine_din (e : Engine) (w : Word) : (launchEngine e w).din = e.din := rfl
@[simp] theorem launchEngine_dout (e : Engine) (w : Word) : (launchEngine e w).dout = e.dout := rfl
@[simp] theorem launchEngine_rkin (e : Engine) (w : Word) : (launchEngine e w).rkin = e.rkin := rfl
@[simp] theorem launchEngine_rks (e : Engine) (w : Word) : (launchEngine e w).rks = e.rks := rfl
@[simp] theorem launchEngine_gen (e : Engine) (w : Word) : (launchEngine e w).gen = e.gen := rfl
@[simp] theorem launchEngine_latch (e : Engine) (w : Word) : (launchEngine e w).latch = captureLatch e w := rfl

end Sys2Proof.Machine
end

