-- ==== Sys2Proof/Laws/Ops.lean ====
section
/-! SUPPORT. The shared operations, each said once: completing a command, bringing an instance into focus, regions, and the step of a command. -/

namespace Sys2Proof.Machine

/-! ## Completing a command -/

@[simp] theorem firstError_nil : firstError [] = none := rfl

@[simp] theorem firstError_none_cons (cs : List (Option ErrCode)) : firstError (none :: cs) = firstError cs := rfl

@[simp] theorem firstError_some_cons (c : ErrCode) (cs : List (Option ErrCode)) :
    firstError (some c :: cs) = some c := rfl

/-- No check fails exactly when each passes. -/
theorem firstError_eq_none {cs : List (Option ErrCode)} : firstError cs = none ↔ ∀ c ∈ cs, c = none := by
  induction cs with
  | nil => simp
  | cons c cs ih => cases c <;> simp [ih]

/-- The reported code is one of the failing checks. -/
theorem firstError_mem {cs : List (Option ErrCode)} {c : ErrCode} (h : firstError cs = some c) : some c ∈ cs := by
  induction cs with
  | nil => simp at h
  | cons d cs ih =>
    cases d with
    | none => exact List.mem_cons_of_mem _ (ih h)
    | some d => simp at h; simp [h]

/-- Everything a completion can do: an error completion, the engine stuck, or the command's effect. -/
theorem command_cases (s : State) (checks : List (Option ErrCode)) (accessed : List Region)
    (effect : State → Except ErrCode State) :
    (∃ c, firstError checks = some c ∧ command s checks accessed effect = .next (raiseError c s)) ∨
    (firstError checks = none ∧ regionsMeet accessed s.refusedMem = true ∧
      command s checks accessed effect = .fault .engineStuck) ∨
    (firstError checks = none ∧ regionsMeet accessed s.refusedMem = false ∧
      ((∃ c, effect s = .error c ∧ command s checks accessed effect = .next (raiseError c s)) ∨
       ∃ t, effect s = .ok t ∧ command s checks accessed effect = .next (finish t))) := by
  unfold command
  cases hc : firstError checks with
  | some c => exact .inl ⟨c, rfl, rfl⟩
  | none =>
    cases hr : regionsMeet accessed s.refusedMem with
    | true => exact .inr (.inl ⟨rfl, rfl, rfl⟩)
    | false =>
      cases he : effect s with
      | error c => exact .inr (.inr ⟨rfl, rfl, .inl ⟨c, rfl, rfl⟩⟩)
      | ok t => exact .inr (.inr ⟨rfl, rfl, .inr ⟨t, rfl, rfl⟩⟩)

/-- A next state is that of an error completion or that of the command's effect. -/
theorem command_next {s t : State} {checks : List (Option ErrCode)} {accessed : List Region}
    {effect : State → Except ErrCode State} (h : command s checks accessed effect = .next t) :
    (∃ c, t = raiseError c s) ∨ (firstError checks = none ∧ ∃ u, effect s = .ok u ∧ t = finish u) := by
  rcases command_cases s checks accessed effect with ⟨c, _, hc⟩ | ⟨_, _, hc⟩ | ⟨hn, _, ⟨c, _, hc⟩ | ⟨u, hu, hc⟩⟩
  · rw [hc] at h; cases h; exact .inl ⟨c, rfl⟩
  · rw [hc] at h; cases h
  · rw [hc] at h; cases h; exact .inl ⟨c, rfl⟩
  · rw [hc] at h; cases h; exact .inr ⟨hn, u, hu, rfl⟩

/-- With every check passed and the port open, the command's effect happens. -/
theorem command_ok {s t : State} {checks : List (Option ErrCode)} {accessed : List Region}
    {effect : State → Except ErrCode State} (hc : firstError checks = none)
    (hr : regionsMeet accessed s.refusedMem = false) (he : effect s = .ok t) :
    command s checks accessed effect = .next (finish t) := by
  simp [command, hc, hr, he]

/-- A failing check is reported. -/
theorem command_error {s : State} {checks : List (Option ErrCode)} {accessed : List Region}
    {effect : State → Except ErrCode State} {c : ErrCode} (hc : firstError checks = some c) :
    command s checks accessed effect = .next (raiseError c s) := by
  simp [command, hc]

/-- Nothing accessed: the port refuses nothing. -/
@[simp] theorem regionsMeet_nil_left (ts : List Region) : regionsMeet [] ts = false := rfl

@[simp] theorem regionsMeet_nil_right (rs : List Region) : regionsMeet rs [] = false := by
  simp [regionsMeet]

theorem Region.contains_iff (r : Region) (a : Nat) : r.contains a = true ↔ r.base ≤ a ∧ a < r.base + r.size := by
  simp [Region.contains]

theorem Region.contains_eq_false_iff (r : Region) (a : Nat) :
    r.contains a = false ↔ a < r.base ∨ r.base + r.size ≤ a := by
  rw [← Bool.not_eq_true, Region.contains_iff]; omega

/-- Two regions meet exactly when some address lies in both. -/
theorem Region.meets_iff (r t : Region) :
    r.meets t = true ↔ ∃ a, r.contains a = true ∧ t.contains a = true := by
  simp only [Region.meets, Region.contains, Bool.and_eq_true, decide_eq_true_eq]
  constructor
  · rintro ⟨⟨⟨hr, ht⟩, h1⟩, h2⟩
    exact ⟨max r.base t.base, by omega, by omega⟩
  · rintro ⟨a, h1, h2⟩
    omega

/-- Two lists of regions meet exactly when some address lies in a region of each. -/
theorem regionsMeet_iff (rs ts : List Region) :
    regionsMeet rs ts = true ↔ ∃ a, (∃ r ∈ rs, r.contains a = true) ∧ ∃ t ∈ ts, t.contains a = true := by
  simp only [regionsMeet, List.any_eq_true, Region.meets_iff]
  constructor
  · rintro ⟨r, hr, t, ht, a, h1, h2⟩
    exact ⟨a, ⟨r, hr, h1⟩, t, ht, h2⟩
  · rintro ⟨a, ⟨r, hr, h1⟩, t, ht, h2⟩
    exact ⟨r, hr, t, ht, a, h1, h2⟩

theorem regionsMeet_comm (rs ts : List Region) : regionsMeet rs ts = regionsMeet ts rs := by
  rw [Bool.eq_iff_iff, regionsMeet_iff, regionsMeet_iff]
  constructor <;> (rintro ⟨a, h1, h2⟩; exact ⟨a, h2, h1⟩)

/-! ## Register writes -/

/-- What a register write can do when it answers a next state: it changes one instance, and of it no unit state and no parameter. -/
theorem hostWrite_frame {r : Reg} {v : Word} {s t : State} (h : hostWrite r v s = .next t) :
    t = { s with eng := t.eng } ∧ t.eng.rks = s.eng.rks ∧ t.eng.gen = s.eng.gen ∧ t.eng.keyValid = s.eng.keyValid ∧
      t.eng.invValid = s.eng.invValid ∧ t.eng.streamValid = s.eng.streamValid ∧ t.eng.base = s.eng.base ∧
      t.eng.hasAes = s.eng.hasAes ∧ t.eng.chainFbInit = s.eng.chainFbInit := by
  unfold hostWrite at h
  split at h
  · unfold writeCmd at h
    split at h
    · cases h; exact ⟨rfl, rfl, rfl, rfl, rfl, rfl, rfl, rfl, rfl⟩
    · unfold launch at h
      simp only at h
      split at h
      · cases h
      · split at h
        · cases h
        · cases h; exact ⟨rfl, rfl, rfl, rfl, rfl, rfl, rfl, rfl, rfl⟩
  · cases h
    cases r <;> exact ⟨rfl, rfl, rfl, rfl, rfl, rfl, rfl, rfl, rfl⟩

/-! ## Instances -/

/-- Bringing the instance in focus into focus changes nothing. -/
@[simp] theorem State.focus_number (s : State) : s.focus s.number = some s := by
  have h : s.engines.drop s.number = s.eng :: s.right := by
    simp [State.engines, State.number]
  have h' : s.engines.take s.number = s.left.reverse := by
    simp [State.engines, State.number]
  simp [State.focus, h, h']

/-- A state with its instance list split where `t` has its focus. -/
theorem State.focus_eq_some {s t : State} {k : Nat} (h : s.focus k = some t) :
    t.engines = s.engines ∧ t.number = k ∧ s.engines[k]? = some t.eng ∧
      t = { s with left := t.left, eng := t.eng, right := t.right } := by
  unfold State.focus at h
  split at h
  · cases h
  · rename_i e r hd
    cases h
    have hk : k < s.engines.length := by
      by_contra hk
      rw [List.drop_eq_nil_of_le (by omega)] at hd
      cases hd
    refine ⟨?_, ?_, ?_, rfl⟩
    · show (s.engines.take k).reverse.reverse ++ e :: r = s.engines
      rw [List.reverse_reverse, ← hd, List.take_append_drop]
    · show (s.engines.take k).reverse.length = k
      simp only [List.length_reverse, List.length_take]; omega
    · have := List.getElem?_drop (xs := s.engines) (i := k) (j := 0)
      rw [hd] at this
      simpa using this.symm

/-- The instance in focus is the one with its number. -/
theorem State.engines_number (s : State) : s.engines[s.number]? = some s.eng := by
  have := (State.focus_eq_some (State.focus_number s)).2.2.1
  exact this

/-- Replacing the instance in focus replaces that entry of the instance list. -/
theorem State.engines_set (s : State) (e : Engine) :
    ({ s with eng := e } : State).engines = s.engines.set s.number e := by
  simp [State.engines, State.number]

/-! ## The step of a command -/

/-- A completion at the instance in focus runs the latched command. -/
theorem step_complete {s : State} {rest : List Event} {i : Instr} (he : s.events = .complete s.number :: rest)
    (hb : s.eng.busy = true) (hi : s.eng.latch.command = .ok i) : step s = exec i { s with events := rest } := by
  have hf : State.focus { s with events := rest } s.number = some { s with events := rest } :=
    State.focus_number { s with events := rest }
  simp [step, agentStep, he, runEvent, completeNumber, hf, completion, hb, hi]

/-- A completion at the instance in focus reports an illegal word. -/
theorem step_complete_illegal {s : State} {rest : List Event} {d : DecodeError}
    (he : s.events = .complete s.number :: rest) (hb : s.eng.busy = true)
    (hi : s.eng.latch.command = .error d) : step s = .next (raiseError .illegalCmd { s with events := rest }) := by
  have hf : State.focus { s with events := rest } s.number = some { s with events := rest } :=
    State.focus_number { s with events := rest }
  simp [step, agentStep, he, runEvent, completeNumber, hf, completion, hb, hi]

end Sys2Proof.Machine
end

