-- ==== Sys2Proof/Laws/Exec.lean ====
section
/-! SUPPORT. Every meaning in one form: its checks, the bytes it accesses, its effect; and everything a step can do. -/

namespace Sys2Proof.Machine

/-- The checks of each command, in order. -/
def checksOf (i : Instr) (s : State) : List (Option ErrCode) :=
  match i with
  | .aesKeyinit _ => [requireBcu s]
  | .aesEncblk => [requireBcu s, requireKey s]
  | .aesDecblk => [requireBcu s, requireKey s, requireInvKey s]
  | .aesEcbEnc => [requireBcu s, requireKey s, requireWholeBlocks s, requireRange s s.eng.latch.buffer]
  | .aesEcbDec => [requireBcu s, requireKey s, requireInvKey s, requireWholeBlocks s, requireRange s s.eng.latch.buffer]
  | .aesCbcEnc => [requireBcu s, requireKey s, requireWholeBlocks s, requireRange s s.eng.latch.buffer]
  | .aesCbcDec => [requireBcu s, requireKey s, requireInvKey s, requireWholeBlocks s, requireRange s s.eng.latch.buffer]
  | .xorChainEnc => [requireBcu s, requireWholeBlocks s, requireRange s s.eng.latch.buffer]
  | .xorChainDec => [requireBcu s, requireWholeBlocks s, requireRange s s.eng.latch.buffer]
  | .aesRkread slot => [requireSlot slot, requireBcu s, requireKey s, requireSlotValid slot s]
  | .aesRoundEnc => [requireBcu s]
  | .aesRoundEnclast => [requireBcu s]
  | .aesRoundDec => [requireBcu s]
  | .aesRoundDeclast => [requireBcu s]
  | .aesInvmix => [requireBcu s]
  | .aesKeystep _ => [requireBcu s]
  | .strInit => [requireStreamKeyLen s, requireRange s s.eng.latch.keyRegion]
  | .strXform => [requireStream s, requireRange s s.eng.latch.buffer]
  | .strSave => [requireStream s, requireRange s s.eng.latch.image]
  | .strLoad => [requireRange s s.eng.latch.image]
  | .chnEnc => [requireChainKeyLen s, requireRange s s.eng.latch.buffer, requireRange s s.eng.latch.keyRegion, requireDisjoint s]
  | .chnDec => [requireChainKeyLen s, requireRange s s.eng.latch.buffer, requireRange s s.eng.latch.keyRegion, requireDisjoint s]

/-- The effect of each command once its checks have passed. -/
def effectOf (i : Instr) (s : State) (t : State) : Except ErrCode State :=
  match i with
  | .aesKeyinit dec => .ok (loadKey dec t)
  | .aesEncblk => .ok (setDout (t.eng.encrypt t.eng.latch.din) t)
  | .aesDecblk => .ok (setDout (t.eng.decrypt t.eng.latch.din) t)
  | .aesEcbEnc => .ok (setMem (bufferResult (ecbEncBlock s.eng) t) t)
  | .aesEcbDec => .ok (setMem (bufferResult (ecbDecBlock s.eng) t) t)
  | .aesCbcEnc => .ok (setMem (bufferResult (cbcEncBlock s.eng) t) t)
  | .aesCbcDec => .ok (setMem (bufferResult (cbcDecBlock s.eng) t) t)
  | .xorChainEnc => .ok (setMem (bufferResult xorEncBlock t) t)
  | .xorChainDec => .ok (setMem (bufferResult xorDecBlock t) t)
  | .aesRkread slot => .ok (setDout (t.eng.slot slot.toNat) t)
  | .aesRoundEnc => .ok (setDout (encRound t.eng.latch.din t.eng.latch.rkin) t)
  | .aesRoundEnclast => .ok (setDout (encLast t.eng.latch.din t.eng.latch.rkin) t)
  | .aesRoundDec => .ok (setDout (decRound t.eng.latch.din t.eng.latch.rkin) t)
  | .aesRoundDeclast => .ok (setDout (decLast t.eng.latch.din t.eng.latch.rkin) t)
  | .aesInvmix => .ok (setDout (invMixColumns t.eng.latch.din) t)
  | .aesKeystep rc => .ok (setDout (nextRoundKey t.eng.latch.din rc) t)
  | .strInit => .ok (strInitEffect t)
  | .strXform => .ok (xformEffect t)
  | .strSave => .ok (setMem (writeBytes t.mem t.eng.latch.addr.toNat (generatorImage t.eng.gen)) t)
  | .strLoad => strLoadEffect t
  | .chnEnc => .ok (setMem (chainResult feedbackWritten t) t)
  | .chnDec => .ok (setMem (chainResult feedbackRead t) t)

/-- What keying the generator changes. (By `simp only`: comparing the two sides by reduction would run the key schedule.) -/
theorem strInitEffect_eq (s : State) : strInitEffect s = { s with
    eng := { s.eng with gen := ksa (readBytes s.mem s.eng.latch.kaddr.toNat s.eng.latch.klen.toNat), streamValid := true } } := by
  simp only [strInitEffect, setStreamValid, setGen]

/-- What a stream transform changes. -/
theorem xformEffect_eq (s : State) : xformEffect s = { s with
    eng := { s.eng with gen := advanceN s.eng.latch.len.toNat s.eng.gen }
    mem := xformLoop s.eng.latch.len.toNat s.eng.latch.addr.toNat s.eng.gen s.mem } := by
  simp only [xformEffect, setGen, setMem]

/-- When an image is loaded, and what that changes. -/
theorem strLoadEffect_eq_ok {s t : State} (h : strLoadEffect s = .ok t) :
    isPermutation ((readBytes s.mem s.eng.latch.addr.toNat 258).take 256) = true ∧
      t = { s with eng := { s.eng with
        gen := generatorOfImage (readBytes s.mem s.eng.latch.addr.toNat 258), streamValid := true } } := by
  simp only [strLoadEffect] at h
  split at h
  · rename_i hp
    simp only [Except.ok.injEq] at h
    exact ⟨hp, by rw [← h]; simp only [setStreamValid, setGen]⟩
  · cases h

/-- Every meaning is one completion: checks, accesses, effect. -/
theorem exec_eq_command (i : Instr) (s : State) :
    exec i s = command s (checksOf i s) (portAccesses i s.eng.latch) (effectOf i s) := by
  cases i <;> rfl

/-- No check reports the code NONE. -/
theorem checksOf_ne_none (i : Instr) (s : State) : some ErrCode.none ∉ checksOf i s := by
  cases i <;>
    simp only [checksOf, List.mem_cons, List.not_mem_nil, or_false, not_or, requireBcu, requireKey, requireInvKey,
      requireStream, requireStreamKeyLen, requireChainKeyLen, requireWholeBlocks, requireRange, requireDisjoint,
      requireSlot, requireSlotValid] <;>
    (try refine ⟨?_, ?_⟩) <;> repeat' (first | split | apply And.intro | simp)

/-- What the effect of a command can change: its unit's state, DOUT, memory, and the free values drawn. -/
theorem effectOf_frame {i : Instr} {s t : State} (h : effectOf i s s = .ok t) :
    t = { s with
      eng := { s.eng with keyValid := t.eng.keyValid, invValid := t.eng.invValid, streamValid := t.eng.streamValid,
                          dout := t.eng.dout, rks := t.eng.rks, gen := t.eng.gen }
      mem := t.mem, draws := t.draws } := by
  cases i <;> simp only [effectOf, Except.ok.injEq] at h
  case strLoad => rw [(strLoadEffect_eq_ok h).2]
  case strInit => subst h; rw [strInitEffect_eq]
  all_goals (subst h; rfl)

/-- Everything the meaning of a command can do when it answers a next state: complete with an error code, or complete
with its effect, each of its checks passed. -/
theorem exec_cases {i : Instr} {s t : State} (h : exec i s = .next t) :
    (∃ c, c ≠ .none ∧ t = raiseError c s) ∨
      (firstError (checksOf i s) = none ∧ ∃ u, effectOf i s s = .ok u ∧ t = finish u) := by
  rw [exec_eq_command] at h
  rcases command_cases s (checksOf i s) (portAccesses i s.eng.latch) (effectOf i s) with
    ⟨c, hc, he⟩ | ⟨_, _, he⟩ | ⟨hn, _, ⟨c, hc, he⟩ | ⟨u, hu, he⟩⟩
  · rw [he] at h; cases h
    exact .inl ⟨c, fun hc' => checksOf_ne_none i s (hc' ▸ firstError_mem hc), rfl⟩
  · rw [he] at h; cases h
  · rw [he] at h; cases h
    refine .inl ⟨c, ?_, rfl⟩
    rintro rfl
    cases i <;> simp only [effectOf, reduceCtorEq] at hc
    unfold strLoadEffect at hc
    simp only at hc
    split at hc <;> cases hc
  · rw [he] at h; cases h
    exact .inr ⟨hn, u, hu, rfl⟩

/-- The state with its first event taken. -/
def popEvent (s : State) : State := { s with events := s.events.tail }

/-- Everything a step can do, seen from the state with the event taken. -/
inductive Move (s : State) : State → Prop
  /-- No instance is concerned. -/
  | idle : Move s (popEvent s)
  /-- An instance that is not busy does nothing. -/
  | quiet {k u} (hf : (popEvent s).focus k = some u) : Move s u
  /-- A register write at an instance. -/
  | write {k r v u t} (hf : (popEvent s).focus k = some u) (h : hostWrite r v u = .next t) : Move s t
  /-- A register read at an instance. -/
  | read {k r u} (hf : (popEvent s).focus k = some u) : Move s (hostRead r u)
  /-- A host memory write. -/
  | memWrite {a bytes} (hr : a + bytes.length ≤ 2 ^ s.aw) :
      Move s { popEvent s with mem := writeBytes s.mem a bytes }
  /-- A host memory read. -/
  | memRead {bytes} : Move s { popEvent s with mdata := bytes }
  /-- The completion of an illegal word. -/
  | illegal {k u} (hf : (popEvent s).focus k = some u) (hb : u.eng.busy = true) : Move s (raiseError .illegalCmd u)
  /-- The completion of a command. -/
  | complete {k i u t} (hf : (popEvent s).focus k = some u) (hb : u.eng.busy = true)
      (hi : u.eng.latch.command = .ok i) (h : exec i u = .next t) : Move s t
  /-- The reset of an instance. -/
  | reset {k n u} (hf : (popEvent s).focus k = some u) (he : s.events.head? = some (.reset n)) : Move s (resetEngine u)

theorem completeNumber_move {s t : State} {k : Nat} (h : completeNumber exec k (popEvent s) = .next t) : Move s t := by
  unfold completeNumber at h
  split at h
  · cases h; exact .idle
  · rename_i u hf
    unfold completion at h
    split at h
    · rename_i hb
      split at h
      · cases h; exact .illegal hf hb
      · rename_i i hi; exact .complete hf hb hi h
    · cases h; exact .quiet hf

theorem popEvent_of_nil {s : State} (h : s.events = []) : popEvent s = s := by
  cases s; simp only at h; subst h; rfl

/-- Bringing instance k into focus gives the one state in which it is. -/
theorem State.focus_of_inFocus {s u : State} {k : Nat} (h : InFocus s u k) : s.focus k = some u := by
  obtain ⟨he, hn, hu⟩ := h
  have : s.focus k = u.focus u.number := by
    rw [hn]
    unfold State.focus
    rw [he]
    generalize s.engines.drop k = l
    cases l with
    | nil => rfl
    | cons e r => rw [hu]
  rw [this, State.focus_number]

/-- A focus by bus address is a focus by number. -/
theorem State.focusAddress_eq_some {s t : State} {a : Nat} (h : s.focusAddress a = some t) :
    ∃ k, s.focus k = some t := by
  unfold State.focusAddress at h
  split at h
  · cases h
  · exact ⟨_, h⟩

/-- A memory access that answers a next state answers the given one, and stays inside memory. -/
theorem memoryAccess_next {s t u : State} {r : Region} (h : memoryAccess s r u = .next t) :
    t = u ∧ r.base + r.size ≤ 2 ^ s.aw ∧ regionsMeet [r] s.footprintsInFlight = false ∧
      regionsMeet [r] s.deviceMem = false := by
  unfold memoryAccess at h
  split at h
  · cases h
  · split at h
    · cases h
    · split at h
      · cases h
      · rename_i h1 h2 h3
        cases h
        exact ⟨rfl, by omega, by simpa using h2, by simpa using h3⟩

/-- The inversion of `step`: every next state is one of the moves. -/
theorem step_move {s t : State} (h : step s = .next t) : Move s t := by
  unfold step agentStep at h
  split at h
  · rename_i he
    have hp := popEvent_of_nil he
    unfold drain at h
    split at h
    · cases h
      have : Move s (popEvent s) := .idle
      rwa [hp] at this
    · exact completeNumber_move (hp.symm ▸ h)
  · rename_i e rest he
    have hp : ({ s with events := rest } : State) = popEvent s := by simp [popEvent, he]
    rw [hp] at h
    cases e with
    | regWrite a width v =>
      simp only [runEvent, busWrite] at h
      split at h
      · cases h
      · rename_i u hu
        obtain ⟨k, hk⟩ := State.focusAddress_eq_some hu
        split at h
        · exact .write hk h
        · cases h
    | regRead a width =>
      simp only [runEvent, busRead] at h
      split at h
      · cases h
      · rename_i u hu
        obtain ⟨k, hk⟩ := State.focusAddress_eq_some hu
        split at h
        · cases h; exact .read hk
        · cases h
    | memWrite a bytes =>
      obtain ⟨rfl, hr, _⟩ := memoryAccess_next h
      exact .memWrite hr
    | memRead a n =>
      obtain ⟨rfl, _, _⟩ := memoryAccess_next h
      exact .memRead
    | complete k => exact completeNumber_move h
    | reset k =>
      simp only [runEvent, resetNumber] at h
      split at h
      · cases h; exact .idle
      · rename_i u hu
        cases h
        exact .reset hu (n := k) (by simp [he])

end Sys2Proof.Machine
end

