-- ==== Sys2Proof/Laws/Loops.lean ====
section
/-! SUPPORT. The loops of the buffer commands: each keeps the canonical form and the address bound, and touches no byte outside its buffer. -/

namespace Sys2Proof.Machine

/-! ## Block buffers -/

theorem blockLoop_wf {m : Memory} (hm : Memory.wf m) (f : Block → Block → Block × Block) (n a : Nat) (prev : Block) :
    Memory.wf (blockLoop f n a prev m) := by
  induction n generalizing a prev m with
  | zero => exact hm
  | succ n ih => exact ih (writeBlock_wf hm _ _) _ _

theorem blockLoop_within {m : Memory} {aw : Nat} (hm : Memory.within m aw) (f : Block → Block → Block × Block)
    (n a : Nat) (prev : Block) (ha : a + 16 * n ≤ 2 ^ aw) : Memory.within (blockLoop f n a prev m) aw := by
  induction n generalizing a prev m with
  | zero => exact hm
  | succ n ih => exact ih (writeBytes_within hm _ (by simp only [Block.length_toBytes]; omega)) _ _ (by omega)

theorem readByte_blockLoop_other {m : Memory} (hm : Memory.wf m) (f : Block → Block → Block × Block) (n a : Nat)
    (prev : Block) {b : Nat} (hb : b < a ∨ a + 16 * n ≤ b) : readByte (blockLoop f n a prev m) b = readByte m b := by
  induction n generalizing a prev m with
  | zero => rfl
  | succ n ih =>
    simp only [blockLoop]
    rw [ih (writeBlock_wf hm _ _) _ _ (by omega), readByte_writeBlock_other hm (by omega)]

/-- The chain value before Block t of a buffer command over memory m. -/
def chainValue (f : Block → Block → Block × Block) (m : Memory) (a : Nat) (prev : Block) : Nat → Block
  | 0 => prev
  | t + 1 => (f (chainValue f m a prev t) (readBlock m (a + 16 * t))).2

theorem chainValue_shift (f : Block → Block → Block × Block) (m m' : Memory) (a : Nat) (prev : Block) (t : Nat)
    (h : ∀ b, a + 16 ≤ b → readByte m' b = readByte m b) :
    chainValue f m' (a + 16) (f prev (readBlock m a)).2 t = chainValue f m a prev (t + 1) := by
  induction t with
  | zero => rfl
  | succ t ih =>
    simp only [chainValue] at ih ⊢
    rw [ih]
    have : readBlock m' (a + 16 + 16 * t) = readBlock m (a + 16 * (t + 1)) := by
      rw [show a + 16 * (t + 1) = a + 16 + 16 * t by omega]
      exact readBlock_congr fun b hb _ => h b (by omega)
    rw [this]

/-- Block t of the buffer after the loop, from the Block read there and the chain value before it. -/
theorem readBlock_blockLoop {m : Memory} (hm : Memory.wf m) (f : Block → Block → Block × Block) (n a : Nat)
    (prev : Block) {t : Nat} (ht : t < n) :
    readBlock (blockLoop f n a prev m) (a + 16 * t) =
      (f (chainValue f m a prev t) (readBlock m (a + 16 * t))).1 := by
  induction n generalizing a prev m t with
  | zero => omega
  | succ n ih =>
    simp only [blockLoop]
    have hw := writeBlock_wf hm a (f prev (readBlock m a)).1
    cases t with
    | zero =>
      have : readBlock (blockLoop f n (a + 16) (f prev (readBlock m a)).2 (writeBlock m a (f prev (readBlock m a)).1)) a
          = readBlock (writeBlock m a (f prev (readBlock m a)).1) a :=
        readBlock_congr fun b _ hb => readByte_blockLoop_other hw f n _ _ (.inl (by omega))
      simpa [readBlock_writeBlock hm, chainValue] using this
    | succ t =>
      have h : ∀ b, a + 16 ≤ b → readByte (writeBlock m a (f prev (readBlock m a)).1) b = readByte m b :=
        fun b hb => readByte_writeBlock_other hm (by omega)
      have := ih hw (a + 16) (f prev (readBlock m a)).2 (t := t) (by omega)
      rw [chainValue_shift f m _ a prev t h] at this
      rw [show a + 16 * (t + 1) = a + 16 + 16 * t by omega, this]
      rw [readBlock_congr fun b hb _ => h b (by omega)]

/-! ## Byte buffers -/

theorem xformLoop_wf {m : Memory} (hm : Memory.wf m) (n a : Nat) (g : Generator) : Memory.wf (xformLoop n a g m) := by
  induction n generalizing a g m with
  | zero => exact hm
  | succ n ih => exact ih (writeByte_wf hm _ _) _ _

theorem xformLoop_within {m : Memory} {aw : Nat} (hm : Memory.within m aw) (n a : Nat) (g : Generator)
    (ha : a + n ≤ 2 ^ aw) : Memory.within (xformLoop n a g m) aw := by
  induction n generalizing a g m with
  | zero => exact hm
  | succ n ih => exact ih (writeByte_within hm (by omega) _) _ _ (by omega)

theorem readByte_xformLoop_other {m : Memory} (hm : Memory.wf m) (n a : Nat) (g : Generator) {b : Nat}
    (hb : b < a ∨ a + n ≤ b) : readByte (xformLoop n a g m) b = readByte m b := by
  induction n generalizing a g m with
  | zero => rfl
  | succ n ih =>
    simp only [xformLoop]
    rw [ih (writeByte_wf hm _ _) _ _ (by omega), readByte_writeByte hm, if_neg (by omega)]

theorem chainLoop_wf {m : Memory} (hm : Memory.wf m) (next : Byte → Byte → Byte) (addr kaddr klen k n : Nat)
    (fb : Byte) : Memory.wf (chainLoop next addr kaddr klen k n fb m) := by
  induction k generalizing n fb m with
  | zero => exact hm
  | succ k ih => exact ih (writeByte_wf hm _ _) _ _

theorem chainLoop_within {m : Memory} {aw : Nat} (hm : Memory.within m aw) (next : Byte → Byte → Byte)
    (addr kaddr klen k n : Nat) (fb : Byte) (ha : addr + n + k ≤ 2 ^ aw) :
    Memory.within (chainLoop next addr kaddr klen k n fb m) aw := by
  induction k generalizing n fb m with
  | zero => exact hm
  | succ k ih => exact ih (writeByte_within hm (by omega) _) _ _ (by omega)

theorem readByte_chainLoop_other {m : Memory} (hm : Memory.wf m) (next : Byte → Byte → Byte)
    (addr kaddr klen k n : Nat) (fb : Byte) {b : Nat} (hb : b < addr + n ∨ addr + n + k ≤ b) :
    readByte (chainLoop next addr kaddr klen k n fb m) b = readByte m b := by
  induction k generalizing n fb m with
  | zero => rfl
  | succ k ih =>
    simp only [chainLoop]
    rw [ih (writeByte_wf hm _ _) _ _ (by omega), readByte_writeByte hm, if_neg (by omega)]

/-- Byte t of the buffer after STR_XFORM's loop, from the byte there and keystream byte t. -/
theorem readByte_xformLoop {m : Memory} (hm : Memory.wf m) (n a : Nat) (g : Generator) {t : Nat} (ht : t < n) :
    readByte (xformLoop n a g m) (a + t) = readByte m (a + t) ^^^ nextKey (advanceN t g) := by
  induction n generalizing a g m t with
  | zero => omega
  | succ n ih =>
    simp only [xformLoop]
    have hw := writeByte_wf hm a (readByte m a ^^^ nextKey g)
    cases t with
    | zero =>
      rw [readByte_xformLoop_other hw _ _ _ (by omega), readByte_writeByte hm, if_pos (by omega)]
      rfl
    | succ t =>
      have := ih hw (a + 1) (advance g) (t := t) (by omega)
      rw [show a + (t + 1) = a + 1 + t by omega, this, readByte_writeByte hm, if_neg (by omega)]
      rfl

/-- The feedback before byte t of a CCU command over memory m, from the feedback at index n on. -/
def chainFeedback (next : Byte → Byte → Byte) (m : Memory) (addr kaddr klen n : Nat) (fb : Byte) : Nat → Byte
  | 0 => fb
  | t + 1 =>
    let x := readByte m (addr + n + t)
    next x (x ^^^ readByte m (kaddr + (n + t) % klen) ^^^ chainFeedback next m addr kaddr klen n fb t)

theorem chainFeedback_shift (next : Byte → Byte → Byte) {m m' : Memory} {addr kaddr klen n : Nat} (fb : Byte) (t : Nat)
    (hb : ∀ b, addr + n < b → b < addr + n + 1 + t → readByte m' b = readByte m b)
    (hk : ∀ j, readByte m' (kaddr + j % klen) = readByte m (kaddr + j % klen)) :
    chainFeedback next m' addr kaddr klen (n + 1)
        (next (readByte m (addr + n)) (readByte m (addr + n) ^^^ readByte m (kaddr + n % klen) ^^^ fb)) t =
      chainFeedback next m addr kaddr klen n fb (t + 1) := by
  induction t with
  | zero => simp [chainFeedback]
  | succ t ih =>
    have ih := ih fun b h1 h2 => hb b h1 (by omega)
    simp only [chainFeedback] at ih ⊢
    rw [ih, hk, show addr + (n + 1) + t = addr + n + (t + 1) by omega, hb (addr + n + (t + 1)) (by omega) (by omega),
      show n + 1 + t = n + (t + 1) by omega]

/-- Byte t of the buffer after a CCU loop whose key bytes lie outside the bytes it writes. -/
theorem readByte_chainLoop {m : Memory} (hm : Memory.wf m) (next : Byte → Byte → Byte) {addr kaddr klen : Nat}
    (hk : 0 < klen) (k n : Nat) (fb : Byte) (hd : kaddr + klen ≤ addr + n ∨ addr + n + k ≤ kaddr) {t : Nat} (ht : t < k) :
    readByte (chainLoop next addr kaddr klen k n fb m) (addr + n + t) =
      readByte m (addr + n + t) ^^^ readByte m (kaddr + (n + t) % klen) ^^^
        chainFeedback next m addr kaddr klen n fb t := by
  induction k generalizing n fb m t with
  | zero => omega
  | succ k ih =>
    simp only [chainLoop]
    have hw := writeByte_wf hm (addr + n) (readByte m (addr + n) ^^^ readByte m (kaddr + n % klen) ^^^ fb)
    cases t with
    | zero =>
      rw [readByte_chainLoop_other hw _ _ _ _ _ _ _ (by omega), readByte_writeByte hm, if_pos (by omega)]
      rfl
    | succ t =>
      have hkey : ∀ j v, readByte (writeByte m (addr + n) v) (kaddr + j % klen) = readByte m (kaddr + j % klen) := by
        intro j v
        have := Nat.mod_lt j hk
        rw [readByte_writeByte hm, if_neg (by omega)]
      have := ih hw (n + 1)
        (next (readByte m (addr + n)) (readByte m (addr + n) ^^^ readByte m (kaddr + n % klen) ^^^ fb)) (t := t)
        (by omega) (by omega)
      rw [show addr + n + (t + 1) = addr + (n + 1) + t by omega, this, hkey, readByte_writeByte hm, if_neg (by omega),
        chainFeedback_shift next fb t (fun b h1 _ => by rw [readByte_writeByte hm, if_neg (by omega)]) (fun j => hkey j _),
        show n + (t + 1) = n + 1 + t by omega]

end Sys2Proof.Machine
end

