-- ==== Sys2Proof/Laws/PerInstr.lean ====
section
/-! SUPPORT. A fact about every command as syntax, one lemma per constructor: its encoding lies in its row of the match and mask table (30_encoding.md R89). -/

namespace Sys2Proof.Laws.EncodingMatchesRow

/-- The encoding masked by the row's mask is the row's match (R89). -/
def Statement (i : Instr) : Prop := encode i &&& i.maskBits = i.matchBits

theorem aesKeyinit (dec : Bool) : Statement (.aesKeyinit dec) := by cases dec <;> (unfold Statement; decide)
theorem aesEncblk : Statement .aesEncblk := by unfold Statement; decide
theorem aesDecblk : Statement .aesDecblk := by unfold Statement; decide
theorem aesEcbEnc : Statement .aesEcbEnc := by unfold Statement; decide
theorem aesEcbDec : Statement .aesEcbDec := by unfold Statement; decide
theorem aesCbcEnc : Statement .aesCbcEnc := by unfold Statement; decide
theorem aesCbcDec : Statement .aesCbcDec := by unfold Statement; decide
theorem xorChainEnc : Statement .xorChainEnc := by unfold Statement; decide
theorem xorChainDec : Statement .xorChainDec := by unfold Statement; decide
theorem aesRkread (slot : Byte) : Statement (.aesRkread slot) := by
  revert slot; unfold Statement; decide
theorem aesRoundEnc : Statement .aesRoundEnc := by unfold Statement; decide
theorem aesRoundEnclast : Statement .aesRoundEnclast := by unfold Statement; decide
theorem aesRoundDec : Statement .aesRoundDec := by unfold Statement; decide
theorem aesRoundDeclast : Statement .aesRoundDeclast := by unfold Statement; decide
theorem aesInvmix : Statement .aesInvmix := by unfold Statement; decide
theorem aesKeystep (rc : Byte) : Statement (.aesKeystep rc) := by
  revert rc; unfold Statement; decide
theorem strInit : Statement .strInit := by unfold Statement; decide
theorem strXform : Statement .strXform := by unfold Statement; decide
theorem strSave : Statement .strSave := by unfold Statement; decide
theorem strLoad : Statement .strLoad := by unfold Statement; decide
theorem chnEnc : Statement .chnEnc := by unfold Statement; decide
theorem chnDec : Statement .chnDec := by unfold Statement; decide

end Sys2Proof.Laws.EncodingMatchesRow
end

