-- ==== Sys2Proof/Tests/Slice0.lean ====
section
/-! SUPPORT. The model's own tests: ill-formed terms, words written out from the spec's encodings, single steps on the spec's vectors, and for every statement with hypotheses a state that meets them. -/

namespace Sys2Proof.Tests

set_option Elab.async false

open Sys2Proof.Machine

/-! ## Well-formedness: the one check refuses an ill-formed term (30_encoding.md R89) -/

theorem test_rkread_slot_20_ill_formed : (Instr.aesRkread 20#8).wellFormed = false := by decide

theorem test_rkread_slot_19_well_formed : (Instr.aesRkread 19#8).wellFormed = true := by decide

/-! ## Decoding, each word written out from 30_encoding.md R87 and R88: RSV, ARG, OP -/

theorem test_decode_keyinit_dec : decode (0b0000000000000000_00000001_00010000#32) = .ok (.aesKeyinit true) := rfl
theorem test_decode_keyinit : decode (0b0000000000000000_00000000_00010000#32) = .ok (.aesKeyinit false) := rfl
theorem test_decode_encblk : decode (0b0000000000000000_00000000_00010001#32) = .ok .aesEncblk := rfl
theorem test_decode_decblk : decode (0b0000000000000000_00000000_00010010#32) = .ok .aesDecblk := rfl
theorem test_decode_ecb_enc : decode (0b0000000000000000_00000000_00010011#32) = .ok .aesEcbEnc := rfl
theorem test_decode_ecb_dec : decode (0b0000000000000000_00000000_00010100#32) = .ok .aesEcbDec := rfl
theorem test_decode_cbc_enc : decode (0b0000000000000000_00000000_00010101#32) = .ok .aesCbcEnc := rfl
theorem test_decode_cbc_dec : decode (0b0000000000000000_00000000_00010110#32) = .ok .aesCbcDec := rfl
theorem test_decode_xor_chain_enc : decode (0b0000000000000000_00000000_00010111#32) = .ok .xorChainEnc := rfl
theorem test_decode_xor_chain_dec : decode (0b0000000000000000_00000000_00011000#32) = .ok .xorChainDec := rfl
theorem test_decode_rkread : decode (0b0000000000000000_00010011_00011001#32) = .ok (.aesRkread 19#8) := rfl
theorem test_decode_round_enc : decode (0b0000000000000000_00000000_00100000#32) = .ok .aesRoundEnc := rfl
theorem test_decode_round_enclast : decode (0b0000000000000000_00000000_00100001#32) = .ok .aesRoundEnclast := rfl
theorem test_decode_round_dec : decode (0b0000000000000000_00000000_00100010#32) = .ok .aesRoundDec := rfl
theorem test_decode_round_declast : decode (0b0000000000000000_00000000_00100011#32) = .ok .aesRoundDeclast := rfl
theorem test_decode_invmix : decode (0b0000000000000000_00000000_00100100#32) = .ok .aesInvmix := rfl
theorem test_decode_keystep : decode (0b0000000000000000_11111111_00100101#32) = .ok (.aesKeystep 255#8) := rfl
theorem test_decode_str_init : decode (0b0000000000000000_00000000_00110000#32) = .ok .strInit := rfl
theorem test_decode_str_xform : decode (0b0000000000000000_00000000_00110001#32) = .ok .strXform := rfl
theorem test_decode_str_save : decode (0b0000000000000000_00000000_00110010#32) = .ok .strSave := rfl
theorem test_decode_str_load : decode (0b0000000000000000_00000000_00110011#32) = .ok .strLoad := rfl
theorem test_decode_chn_enc : decode (0b0000000000000000_00000000_01000000#32) = .ok .chnEnc := rfl
theorem test_decode_chn_dec : decode (0b0000000000000000_00000000_01000001#32) = .ok .chnDec := rfl

/-- Reserved and illegal encodings (R90), one for each cause. -/
theorem test_illegal_words :
    decode 0x00000000#32 = .error .unassignedOp ∧ decode 0x000000FF#32 = .error .unassignedOp ∧
      decode 0x00010011#32 = .error .reservedNonzero ∧ decode 0x00000111#32 = .error .argNonzero ∧
      decode 0x00000210#32 = .error .keyinitArgReserved ∧ decode 0x00001419#32 = .error .slotOutOfRange :=
  ⟨rfl, rfl, rfl, rfl, rfl, rfl⟩

/-! ## Small states -/

/-- The machine after reset, with memory of 2^aw bytes and the four operand registers written. -/
def prepared (aw : Nat) (addr len kaddr klen : Word) : State :=
  { State.reset with
    aw := aw
    eng := { State.reset.eng with addr := addr, len := len, kaddr := kaddr, klen := klen } }

/-- A command word launched, its completion next. -/
def launched (s : State) (w : Nat) : State := s.withFetchWord 32 w

/-- A Block from sixteen bytes. -/
def block (l : List Byte) : Block :=
  ⟨l.getD 0 0, l.getD 1 0, l.getD 2 0, l.getD 3 0, l.getD 4 0, l.getD 5 0, l.getD 6 0, l.getD 7 0,
   l.getD 8 0, l.getD 9 0, l.getD 10 0, l.getD 11 0, l.getD 12 0, l.getD 13 0, l.getD 14 0, l.getD 15 0⟩

/-- The latched DIN and RKIN of a state just launched. -/
def withBlocks (din rkin : Block) (s : State) : State :=
  { s with eng := { s.eng with latch := { s.eng.latch with din := din, rkin := rkin } } }

/-- DOUT after the meaning of a command, if it answers a next state. -/
def doutAfter (i : Instr) (s : State) : Option Block := (nextState (exec i s)).map fun t => blk t.eng.dout

/-- ERRCODE after one step, if it answers a next state. -/
def codeAfter (s : State) : Option ErrCode := (nextState (step s)).map fun t => t.eng.errcode

/-! ## Single commands on the examples of the spec -/

/-- The example of 40_block_cipher_core.md R121. -/
theorem test_round_enc : doutAfter .aesRoundEnc (withBlocks
    (block [0x19, 0x3d, 0xe3, 0xbe, 0xa0, 0xf4, 0xe2, 0x2b, 0x9a, 0xc6, 0x8d, 0x2a, 0xe9, 0xf8, 0x48, 0x08])
    (block [0xa0, 0xfa, 0xfe, 0x17, 0x88, 0x54, 0x2c, 0xb1, 0x23, 0xa3, 0x39, 0x39, 0x2a, 0x6c, 0x76, 0x05])
    State.reset) = some
    (block [0xa4, 0x9c, 0x7f, 0xf2, 0x68, 0x9f, 0x35, 0x2b, 0x6b, 0x5b, 0xea, 0x43, 0x02, 0x6a, 0x50, 0x49]) := by
  decide +kernel

/-- The example of R122. -/
theorem test_round_enclast : doutAfter .aesRoundEnclast (withBlocks
    (block [0xeb, 0x40, 0xf2, 0x1e, 0x59, 0x2e, 0x38, 0x84, 0x8b, 0xa1, 0x13, 0xe7, 0x1b, 0xc3, 0x42, 0xd2])
    (block [0xd0, 0x14, 0xf9, 0xa8, 0xc9, 0xee, 0x25, 0x89, 0xe1, 0x3f, 0x0c, 0xc8, 0xb6, 0x63, 0x0c, 0xa6])
    State.reset) = some
    (block [0x39, 0x25, 0x84, 0x1d, 0x02, 0xdc, 0x09, 0xfb, 0xdc, 0x11, 0x85, 0x97, 0x19, 0x6a, 0x0b, 0x32]) := by
  decide +kernel

/-- The example of R123. -/
theorem test_round_dec : doutAfter .aesRoundDec (withBlocks
    (block [0xe9, 0x31, 0x7d, 0xb5, 0xcb, 0x32, 0x2c, 0x72, 0x3d, 0x2e, 0x89, 0x5f, 0xaf, 0x09, 0x07, 0x94])
    (block [0x0c, 0x7b, 0x5a, 0x63, 0x13, 0x19, 0xea, 0xfe, 0xb0, 0x39, 0x88, 0x90, 0x66, 0x4c, 0xfb, 0xb4])
    State.reset) = some
    (block [0x87, 0x6e, 0x46, 0xa6, 0xf2, 0x4c, 0xe7, 0x8c, 0x4d, 0x90, 0x4a, 0xd8, 0x97, 0xec, 0xc3, 0x95]) := by
  decide +kernel

/-- The example of R124. -/
theorem test_round_declast : doutAfter .aesRoundDeclast (withBlocks
    (block [0xd4, 0xbf, 0x5d, 0x30, 0xe0, 0xb4, 0x52, 0xae, 0xb8, 0x41, 0x11, 0xf1, 0x1e, 0x27, 0x98, 0xe5])
    (block [0x2b, 0x7e, 0x15, 0x16, 0x28, 0xae, 0xd2, 0xa6, 0xab, 0xf7, 0x15, 0x88, 0x09, 0xcf, 0x4f, 0x3c])
    State.reset) = some
    (block [0x32, 0x43, 0xf6, 0xa8, 0x88, 0x5a, 0x30, 0x8d, 0x31, 0x31, 0x98, 0xa2, 0xe0, 0x37, 0x07, 0x34]) := by
  decide +kernel

/-- The example of R125. -/
theorem test_invmix : doutAfter .aesInvmix (withBlocks
    (block [0xac, 0x77, 0x66, 0xf3, 0x19, 0xfa, 0xdc, 0x21, 0x28, 0xd1, 0x29, 0x41, 0x57, 0x5c, 0x00, 0x6e])
    Block.zero State.reset) = some
    (block [0x0c, 0x7b, 0x5a, 0x63, 0x13, 0x19, 0xea, 0xfe, 0xb0, 0x39, 0x88, 0x90, 0x66, 0x4c, 0xfb, 0xb4]) := by
  decide +kernel

/-- The example of R126. -/
theorem test_keystep : doutAfter (.aesKeystep 0x01#8) (withBlocks
    (block [0x2b, 0x7e, 0x15, 0x16, 0x28, 0xae, 0xd2, 0xa6, 0xab, 0xf7, 0x15, 0x88, 0x09, 0xcf, 0x4f, 0x3c])
    Block.zero State.reset) = some
    (block [0xa0, 0xfa, 0xfe, 0x17, 0x88, 0x54, 0x2c, 0xb1, 0x23, 0xa3, 0x39, 0x39, 0x2a, 0x6c, 0x76, 0x05]) := by
  decide +kernel

/-- The example key of R119, its schedule loaded (slots 0 to 19). -/
def keyed (s : State) : State :=
  loadKey true { s with eng := { s.eng with latch := { s.eng.latch with
    key := block [0x2b, 0x7e, 0x15, 0x16, 0x28, 0xae, 0xd2, 0xa6, 0xab, 0xf7, 0x15, 0x88, 0x09, 0xcf, 0x4f, 0x3c] } } }

/-- The example of R120. -/
theorem test_rkread_19 : doutAfter (.aesRkread 19#8) (keyed State.reset) = some
    (block [0x2b, 0x37, 0x08, 0xa7, 0xf2, 0x62, 0xd4, 0x05, 0xbc, 0x3e, 0xbd, 0xbf, 0x4b, 0x61, 0x7d, 0x62]) := by
  decide +kernel

/-- The example of 41_block_cipher_modes.md R141. -/
theorem test_encblk : doutAfter .aesEncblk (withBlocks
    (block [0x32, 0x43, 0xf6, 0xa8, 0x88, 0x5a, 0x30, 0x8d, 0x31, 0x31, 0x98, 0xa2, 0xe0, 0x37, 0x07, 0x34])
    Block.zero (keyed State.reset)) = some
    (block [0x39, 0x25, 0x84, 0x1d, 0x02, 0xdc, 0x09, 0xfb, 0xdc, 0x11, 0x85, 0x97, 0x19, 0x6a, 0x0b, 0x32]) := by
  decide +kernel

/-- The example of R142. -/
theorem test_decblk : doutAfter .aesDecblk (withBlocks
    (block [0x39, 0x25, 0x84, 0x1d, 0x02, 0xdc, 0x09, 0xfb, 0xdc, 0x11, 0x85, 0x97, 0x19, 0x6a, 0x0b, 0x32])
    Block.zero (keyed State.reset)) = some
    (block [0x32, 0x43, 0xf6, 0xa8, 0x88, 0x5a, 0x30, 0x8d, 0x31, 0x31, 0x98, 0xa2, 0xe0, 0x37, 0x07, 0x34]) := by
  decide +kernel

/-- The plaintext Block of the example of 41_block_cipher_modes.md R143 twice, in the first 32 bytes of memory, the schedule loaded. -/
def twoBlocks (w : Nat) : State :=
  let b := [0x32#8, 0x43#8, 0xf6#8, 0xa8#8, 0x88#8, 0x5a#8, 0x30#8, 0x8d#8, 0x31#8, 0x31#8, 0x98#8, 0xa2#8, 0xe0#8, 0x37#8,
    0x07#8, 0x34#8]
  { keyed (launched (prepared 8 0#32 32#32 0#32 0#32) w) with mem := writeBytes [] 0 (b ++ b) }

/-- A generator that is valid. -/
def withGenerator (g : Generator) (s : State) : State :=
  { s with eng := { s.eng with gen := g, streamValid := true } }

/-- The second ciphertext Block of the example of R145 (it starts eb, bb). -/
theorem test_cbc_enc : (nextState (exec .aesCbcEnc (twoBlocks 0x15))).map
    (fun t => (readByte t.mem 0, readByte t.mem 16, readByte t.mem 17)) = some (0x39#8, 0xeb#8, 0xbb#8) := by
  decide +kernel

/-- The example of R143: equal Blocks give equal Blocks. -/
theorem test_ecb_enc : (nextState (exec .aesEcbEnc (twoBlocks 0x13))).map
    (fun t => (readByte t.mem 0, readByte t.mem 16, readByte t.mem 17)) = some (0x39#8, 0x39#8, 0x25#8) := by
  decide +kernel

/-- The first bytes of the permutation for the key "Key" (42_stream_cipher.md R173). -/
theorem test_str_init : (nextState (exec .strInit
    { launched (prepared 16 0#32 0#32 0x10#32 3#32) 0x30 with
      mem := [(0x10, 0x4b#8), (0x11, 0x65#8), (0x12, 0x79#8)] })).map
    (fun t => (t.eng.gen.p.toList.take 4, t.eng.streamValid)) = some ([0x4b#8, 0x33#8, 0x84#8, 0x9d#8], true) := by
  decide +kernel

/-- Bytes 0, 255, 256 and 257 of the image (R175). -/
theorem test_str_save : (nextState (exec .strSave (withGenerator ⟨identityPerm, 0x09#8, 0xde#8⟩
    (launched (prepared 16 0x100#32 0#32 0#32 0#32) 0x32)))).map
    (fun t => [readByte t.mem 0x100, readByte t.mem 0x1FF, readByte t.mem 0x200, readByte t.mem 0x201]) =
    some [0x00#8, 0xFF#8, 0x09#8, 0xde#8] := by
  decide +kernel

/-- A machine of 64 KiB with an 8-byte buffer at 0x100 (zero but for the given cells) and the key 12345678 at 0x10. -/
def chained (cells : Memory) : State :=
  { launched (prepared 16 0x100#32 8#32 0x10#32 4#32) 0x40 with
    mem := [(0x10, 0x12#8), (0x11, 0x34#8), (0x12, 0x56#8), (0x13, 0x78#8)] ++ cells }

/-- The first eight bytes of the example of 43_chain_cipher.md R191. -/
theorem test_chn_enc : (nextState (exec .chnEnc (chained []))).map (fun t => readBytes t.mem 0x100 8) =
    some [0x12#8, 0x26#8, 0x70#8, 0x08#8, 0x1a#8, 0x2e#8, 0x78#8, 0x00#8] := by
  decide +kernel

/-- The example of R192 on those eight bytes: zero bytes again. -/
theorem test_chn_dec : (nextState (exec .chnDec (chained [(0x100, 0x12#8), (0x101, 0x26#8), (0x102, 0x70#8),
    (0x103, 0x08#8), (0x104, 0x1a#8), (0x105, 0x2e#8), (0x106, 0x78#8)]))).map (fun t => readBytes t.mem 0x100 8) =
    some [0#8, 0#8, 0#8, 0#8, 0#8, 0#8, 0#8, 0#8] := by
  decide +kernel

/-- Two equal Blocks under the XOR chain give the Block and then zero (R147). -/
theorem test_xor_chain_enc : (nextState (exec .xorChainEnc
    { launched (prepared 8 0#32 32#32 0#32 0#32) 0x17 with mem := [(0, 0x32#8), (16, 0x32#8)] })).map
      (fun t => (readByte t.mem 0, readByte t.mem 16)) = some (0x32#8, 0x00#8) := by
  decide +kernel

/-- The inverse gives the two equal Blocks back (R148). -/
theorem test_xor_chain_dec : (nextState (exec .xorChainDec
    { launched (prepared 8 0#32 32#32 0#32 0#32) 0x18 with mem := [(0, 0x32#8)] })).map
      (fun t => (readByte t.mem 0, readByte t.mem 16)) = some (0x32#8, 0x32#8) := by
  decide +kernel

/-- Two keystream steps over the identity permutation, by hand from 42_stream_cipher.md R172: i = 1, j = 1, out P[2] = 2; then
i = 2, j = 3, the two swapped, out P[5] = 5. -/
theorem test_keystream :
    (nextKey ⟨identityPerm, 0#8, 0#8⟩, nextKey (advance ⟨identityPerm, 0#8, 0#8⟩)) = (0x02#8, 0x05#8) := by
  decide +kernel

/-! ## Errors, one step from a launch (60_exceptions.md R221, R222) -/

theorem test_error_codes :
    codeAfter (launched State.reset 0x00) = some .illegalCmd ∧
      codeAfter (launched State.reset 0x1419) = some .illegalCmd ∧
      codeAfter (launched State.reset 0x11) = some .noKey ∧
      codeAfter (launched State.reset 0x31) = some .noStream ∧
      codeAfter (launched State.reset 0x30) = some .badKeyLen ∧
      codeAfter (launched State.reset 0x40) = some .badKeyLen ∧
      codeAfter (launched State.reset 0x33) = some .badState ∧
      codeAfter (launched (prepared 8 0#32 15#32 0#32 0#32) 0x17) = some .badLength ∧
      codeAfter (launched (prepared 8 0xFF#32 0#32 0#32 0#32) 0x33) = some .range ∧
      codeAfter (launched (prepared 8 0#32 8#32 7#32 1#32) 0x40) = some .overlap ∧
      codeAfter (launched (prepared 8 0#32 8#32 8#32 1#32) 0x40) = some .none := by
  decide +kernel

/-- A launch and a completion through the register block: AES_ROUND_ENC on zero operands gives all 0x63 (R121). -/
theorem test_launch_by_register_write : (nextState (step { State.reset with events := [cmd 0 .aesRoundEnc] })).map
    (fun t => (t.eng.busy, t.eng.latch.op, t.events)) = some (true, 0x20#8, []) := by
  decide +kernel

/-! ## Witnesses: for each statement with hypotheses, states that meet them -/

theorem witness_IllegalWordCompletesWithIllegalCmd :
    ∀ w ∈ [0x00010011#32, 0x80000040#32, 0x00000000#32, 0x000000FF#32, 0x00000042#32, 0x00000111#32, 0x00008041#32,
           0x00000210#32, 0x00008010#32, 0x00001419#32, 0x0000FF19#32],
      IllegalWord w ∧ (launched State.reset w.toNat).events = .complete (launched State.reset w.toNat).number :: [] ∧
        (launched State.reset w.toNat).eng.busy = true ∧
        (launched State.reset w.toNat).eng.latch.op = w.extractLsb' 0 8 ∧
        (launched State.reset w.toNat).eng.latch.arg = w.extractLsb' 8 8 ∧
        (launched State.reset w.toNat).eng.latch.rsv = w.extractLsb' 16 16 := by
  intro w hw
  simp only [List.mem_cons, List.not_mem_nil, or_false] at hw
  unfold IllegalWord
  rcases hw with rfl | rfl | rfl | rfl | rfl | rfl | rfl | rfl | rfl | rfl | rfl <;>
    exact ⟨by decide +kernel, rfl, rfl, rfl, rfl, rfl⟩

theorem witness_FetchWordRunsNext : decode 0x00000110#32 = .ok (.aesKeyinit true) := rfl

/-- One instance busy with word w, no event left. -/
def draining (w : Nat) : State := { launched State.reset w with events := [] }

theorem witness_EmptyQueueCompletesBusyInstance :
    (State.reset.events = [] ∧ ∀ e ∈ State.reset.engines, e.busy = false) ∧
    ((draining 0x20).events = [] ∧ (∀ e ∈ (draining 0x20).left, e.busy = false) ∧ (draining 0x20).eng.busy = true ∧
      decodeFields (draining 0x20).eng.latch.op (draining 0x20).eng.latch.arg (draining 0x20).eng.latch.rsv =
        .ok .aesRoundEnc) := by
  refine ⟨⟨rfl, ?_⟩, rfl, ?_, rfl, rfl⟩ <;> decide +kernel

/-- A host that polls STATUS while STR_LOAD is in flight. -/
def polling (events : List Event) : State := { launched State.reset 0x33 with events := events }

theorem witness_WaitLoopEnds :
    ∀ n ∈ [0, 2], (polling (List.replicate n (rd 0 .status))).left = [] ∧ (polling (wait 0 0 n)).right = [] ∧
      (polling (wait 0 0 n)).eng.busy = true ∧ PortOpen (polling (wait 0 0 n)) (polling (wait 0 0 n)).eng.latch.footprint ∧
      (polling (List.replicate n (rd 0 .status))).events =
        List.replicate n (rd (polling (List.replicate n (rd 0 .status))).eng.base .status) ∧
      (polling (wait 0 0 n)).events = wait (polling (wait 0 0 n)).eng.base 0 n := by
  unfold PortOpen; decide +kernel

theorem witness_LaunchCapturesEveryOperand :
    State.reset.eng.busy = false ∧
      regionsMeet (launchEngine State.reset.eng 0x33#32).latch.footprint State.reset.deviceMem = false ∧
      regionsMeet (launchEngine State.reset.eng 0x33#32).latch.footprint
        (State.reset.others.flatMap Engine.footprintInFlight) = false := by
  decide +kernel

/-- Memory with read side effects at the last byte of a 258-byte image at 0. -/
def deviceAtLastByte : State := { State.reset with deviceMem := [⟨257, 1⟩] }

/-- A second instance, busy with STR_LOAD of the image at 257; the image at 0 ends at that byte. -/
def otherBusy : State :=
  { State.reset with
    right := [launchEngine { Engine.reset 256 true 0x00#8 with addr := 257#32 } 0x33#32] }

/-- The same two instances with the second in focus. -/
def otherInFocus (rest : List Event) : State :=
  { State.reset with
    left := [State.reset.eng]
    eng := launchEngine { Engine.reset 256 true 0x00#8 with addr := 257#32 } 0x33#32
    right := []
    events := rest }

/-- A first instance idle, a second busy with word w. -/
def secondBusy (w : Word) (events : List Event) : State :=
  { State.reset with right := [launchEngine (Engine.reset 256 true 0x00#8) w], events := events }

/-- The same with the second in focus. -/
def secondInFocus (w : Word) (rest : List Event) : State :=
  { State.reset with
    left := [State.reset.eng], eng := launchEngine (Engine.reset 256 true 0x00#8) w, right := [], events := rest }

/-- A command and an illegal word at the second instance, and a command at the first. -/
theorem witness_StepRunsLatchedCommand :
    (∀ w, (secondBusy w [.complete 1]).events = .complete 1 :: [] ∧
      InFocus { secondBusy w [.complete 1] with events := [] } (secondInFocus w []) 1 ∧
      (secondInFocus w []).eng.busy = true) ∧
    decodeFields (secondInFocus 0x1319#32 []).eng.latch.op (secondInFocus 0x1319#32 []).eng.latch.arg
      (secondInFocus 0x1319#32 []).eng.latch.rsv = .ok (.aesRkread 19#8) ∧
    decodeFields (secondInFocus 0x1419#32 []).eng.latch.op (secondInFocus 0x1419#32 []).eng.latch.arg
      (secondInFocus 0x1419#32 []).eng.latch.rsv = .error .slotOutOfRange ∧
    InFocus { launched State.reset 0x20 with events := [] } { launched State.reset 0x20 with events := [] } 0 :=
  ⟨fun _ => ⟨rfl, ⟨rfl, rfl, rfl⟩, rfl⟩, rfl, rfl, rfl, rfl, rfl⟩

theorem witness_LaunchStopsOnForbiddenFootprint :
    (deviceAtLastByte.eng.busy = false ∧ decode 0x33#32 = .ok .strLoad ∧
      (∃ r ∈ footprint .strLoad (launchEngine deviceAtLastByte.eng 0x33#32).latch, r.contains 257 = true) ∧
        ∃ d ∈ deviceAtLastByte.deviceMem, d.contains 257 = true) ∧
    (otherBusy.eng.busy = false ∧
      regionsMeet (footprint .strLoad (launchEngine otherBusy.eng 0x33#32).latch) otherBusy.deviceMem = false ∧
      ∃ e ∈ otherBusy.others, e.busy = true ∧
        (∃ r ∈ footprint .strLoad (launchEngine otherBusy.eng 0x33#32).latch, r.contains 257 = true) ∧
        ∃ t ∈ e.latch.footprint, t.contains 257 = true) := by
  refine ⟨⟨rfl, rfl, ?_⟩, rfl, ?_⟩ <;> decide +kernel

theorem witness_CmdWriteWhileBusyOnlySetsOverrun : (launched State.reset 0x11).eng.busy = true := rfl

theorem witness_RegisterWritesDoNotAffectCommandInFlight :
    (launched State.reset 0x20).eng.busy = true ∧ (launched State.reset 0x20).eng.FlagsConsistent ∧
      ∃ u, exec .aesRoundEnc (launched State.reset 0x20) = .next u := by
  refine ⟨rfl, ?_, _, rfl⟩
  unfold Engine.FlagsConsistent; decide +kernel

theorem witness_ReadOnlyOffsetsIgnoreWrites :
    ∀ r ∈ [Reg.caps, .dout 0, .dout 3, .reserved 0, .reserved 39],
      r = .caps ∨ (∃ k, r = .dout k) ∨ ∃ n, r = .reserved n := by
  simp

theorem witness_OperandRegistersStoreOnly :
    ∀ r ∈ [Reg.addr, .len, .kaddr, .klen, .key 0, .key 3, .din 0, .din 3, .rkin 0, .rkin 3],
      r = .addr ∨ r = .len ∨ r = .kaddr ∨ r = .klen ∨ ∃ n, r = .key n ∨ r = .din n ∨ r = .rkin n := by
  simp

theorem witness_HostReadHasNoSideEffect :
    (State.reset.eng.busy = false ∨ ∀ k, Reg.dout 0 ≠ .dout k) ∧
    ((launched State.reset 0x11).eng.busy = false ∨ ∀ k, Reg.status ≠ .dout k) ∧
    (Reg.cmd = .cmd ∨ ∃ n, Reg.cmd = .reserved n) ∧
    ((launched State.reset 0x11).eng.busy = true ∧ Reg.dout 3 = .dout 3) :=
  ⟨.inl rfl, .inr (by simp), .inl rfl, rfl, rfl⟩

theorem reset_parametersLegal : State.reset.ParametersLegal := by
  unfold State.ParametersLegal; decide +kernel

theorem otherBusy_parametersLegal : otherBusy.ParametersLegal := by
  unfold State.ParametersLegal; decide +kernel

/-- The last reserved offset of the second instance, and CAPS of the first. -/
theorem witness_BusAccessReachesRegister (rest : List Event) :
    ({ otherBusy with events := wr 256 (.reserved 39) 1#32 :: rest } : State).ParametersLegal ∧
      (∀ n, Reg.reserved 39 = .reserved n → n < 40) ∧
      InFocus { otherBusy with events := rest } (otherInFocus rest) 1 ∧
      ({ otherBusy with events := wr 256 (.reserved 39) 1#32 :: rest } : State).events =
        wr (otherInFocus rest).eng.base (.reserved 39) 1#32 :: rest ∧
      InFocus { otherBusy with events := rest } { otherBusy with events := rest } 0 ∧
      ({ otherBusy with events := rd 0 .caps :: rest } : State).events = rd otherBusy.eng.base .caps :: rest :=
  ⟨otherBusy_parametersLegal, by simp, ⟨rfl, rfl, rfl⟩, rfl, ⟨rfl, rfl, rfl⟩, rfl⟩

theorem witness_NarrowOrMisalignedAccessRefused :
    otherBusy.ParametersLegal ∧
      (∃ e ∈ otherBusy.engines, e.base ≤ 511 ∧ 511 < e.base + 256) ∧ ((32 : Nat) ≠ 32 ∨ 511 % 4 ≠ 0) ∧
      (∃ e ∈ otherBusy.engines, e.base ≤ 0 ∧ 0 < e.base + 256) ∧ ((16 : Nat) ≠ 32 ∨ 0 % 4 ≠ 0) :=
  ⟨otherBusy_parametersLegal, by decide +kernel, by decide, by decide +kernel, by decide⟩

/-- STR_LOAD of the 258-byte image at 0 in flight, and then a host memory access. -/
def imageInFlight (e : Event) : State := { launched State.reset 0x33 with events := [e] }

theorem witness_HostMemoryAccessOutsideFootprints :
    Memory.wf (imageInFlight (mw 258 [1#8, 2#8])).mem ∧
      (∀ b, 258 ≤ b → b < 258 + 2 → ∀ e ∈ (imageInFlight (mw 258 [1#8, 2#8])).engines, e.busy = true →
        ∀ r ∈ e.latch.footprint, r.contains b = false) ∧
      258 + 2 ≤ 2 ^ (imageInFlight (mw 258 [1#8, 2#8])).aw ∧ [1#8, 2#8].length = 2 ∧
      (imageInFlight (mw 258 [1#8, 2#8])).events = mw 258 [1#8, 2#8] :: [] ∧
      (imageInFlight (mr 258 2)).events = mr 258 2 :: [] ∧
      (∀ b, 258 ≤ b → b < 258 + 2 → ∀ d ∈ (imageInFlight (mw 258 [1#8, 2#8])).deviceMem, d.contains b = false) ∧
      (∃ b, 258 ≤ b ∧ b < 258 + 2 ∧
        ∃ d ∈ ({ imageInFlight (mw 258 [1#8, 2#8]) with deviceMem := [⟨259, 1⟩] } : State).deviceMem,
          d.contains b = true) := by
  refine ⟨Memory.wf_nil, ?_, by decide +kernel, rfl, rfl, rfl, ?_, 259, by decide, by decide, by decide⟩
  · intro b h1 h2
    have : b = 258 ∨ b = 259 := by omega
    rcases this with rfl | rfl <;> decide +kernel
  · intro b _ _ d hd
    simp [imageInFlight, launched, State.withFetchWord, armCommand, State.reset, State.resetWith] at hd

theorem witness_HostAccessToFootprintFaults :
    257 + 1 ≤ 2 ^ (imageInFlight (mr 257 1)).aw ∧ 257 ≤ 257 ∧ 257 < 257 + 1 ∧
      (launched State.reset 0x33).eng ∈ (imageInFlight (mr 257 1)).engines ∧
      (launched State.reset 0x33).eng.busy = true ∧ ⟨0, 258⟩ ∈ (launched State.reset 0x33).eng.latch.footprint ∧
      Region.contains ⟨0, 258⟩ 257 = true ∧ [1#8].length = 1 ∧
      (imageInFlight (mr 257 1)).events = mr 257 1 :: [] ∧ (imageInFlight (mw 257 [1#8])).events = mw 257 [1#8] :: [] := by
  refine ⟨by decide +kernel, le_rfl, by decide, ?_, rfl, ?_, by decide, rfl, rfl, rfl⟩
  · simp [State.engines, imageInFlight]
  · decide +kernel

theorem witness_CompletionReportsFirstFailingCheck :
    (∀ w ∈ [0x00, 0x11, 0x30, 0x33, 0x20],
      (launched State.reset w).events = .complete (launched State.reset w).number :: [] ∧
      (launched State.reset w).eng.busy = true ∧ PortOpen (launched State.reset w) (launched State.reset w).eng.latch.footprint) ∧
    checkLatch (launched State.reset 0x11) ≠ .none ∧ checkLatch (launched State.reset 0x33) = .badState ∧
    checkLatch (launched State.reset 0x20) = .none := by
  unfold PortOpen; decide +kernel

theorem witness_EveryCompletionReportsOneOutcome :
    (launched State.reset 0x20).eng.done = false ∧ (launched State.reset 0x20).eng.err = false ∧
      (∃ t, exec .aesRoundEnc (launched State.reset 0x20) = .next t ∧ t.eng.done = true) ∧
      (∃ t, exec .aesEncblk (launched State.reset 0x11) = .next t ∧ t.eng.err = true) :=
  ⟨rfl, rfl, ⟨_, rfl, rfl⟩, _, rfl, rfl⟩

theorem witness_CommandFrame :
    Memory.wf (launched State.reset 0x17).mem ∧ (∃ t, exec .xorChainEnc (launched State.reset 0x17) = .next t) ∧
      (∀ r ∈ writtenFootprint .strSave (launched State.reset 0x32).eng.latch, r.contains 258 = false) :=
  ⟨Memory.wf_nil, ⟨_, rfl⟩, by decide +kernel⟩

/-- The XOR chain over the last 16 of 256 bytes, of which the platform refuses the last. -/
def refused : State := { launched (prepared 8 240#32 16#32 0#32 0#32) 0x17 with refusedMem := [⟨255, 1⟩] }

/-- STR_LOAD of an image of zero bytes, of which the platform refuses the last. -/
def refusedImage : State := { launched State.reset 0x33 with refusedMem := [⟨257, 1⟩] }

theorem witness_RefusedPortAccessSticks :
    (refusedImage.events = .complete refusedImage.number :: [] ∧ refusedImage.eng.busy = true ∧
      refusedImage.eng.latch.command = .ok .strLoad ∧ checkLatch refusedImage = .badState ∧
      regionsMeet (portAccesses .strLoad refusedImage.eng.latch) refusedImage.refusedMem = true) ∧
    refused.events = .complete refused.number :: [] ∧ refused.eng.busy = true ∧
      refused.eng.latch.command = .ok .xorChainEnc ∧ checkLatch refused = .none ∧
      regionsMeet (portAccesses .xorChainEnc refused.eng.latch) refused.refusedMem = true :=
  ⟨⟨rfl, rfl, rfl, by decide +kernel, by decide +kernel⟩, rfl, rfl, rfl, by decide +kernel, by decide +kernel⟩

/-- An instance without the BCU, after reset. -/
def withoutBcu : State := State.resetWith 32 (Engine.reset 0 false 0x00#8) []

theorem witness_UnsupportedExactlyWithoutBcu :
    (∀ i ∈ [Instr.aesKeyinit true, .aesRkread 0#8, .aesRkread 19#8, .aesKeystep 255#8, .xorChainDec],
      i.wellFormed = true ∧ i.opcode ∈ [0x10#8, 0x11#8, 0x12#8, 0x13#8, 0x14#8, 0x15#8, 0x16#8, 0x17#8, 0x18#8, 0x19#8,
        0x20#8, 0x21#8, 0x22#8, 0x23#8, 0x24#8, 0x25#8]) ∧ withoutBcu.eng.hasAes = false ∧
    (State.reset.eng.hasAes = true ∧ State.reset.eng.errcode ≠ .unsupported ∧
      ∃ t, exec .aesEncblk State.reset = .next t) :=
  ⟨by decide, rfl, rfl, by decide, _, rfl⟩

/-- STR_SAVE to the image at 0 in flight at the second instance, and then the reset of it. -/
theorem witness_ResetOfInstance :
    Memory.wf (secondBusy 0x32#32 [.reset 1]).mem ∧ (secondBusy 0x32#32 [.reset 1]).events = .reset 1 :: [] ∧
      InFocus { secondBusy 0x32#32 [.reset 1] with events := [] } (secondInFocus 0x32#32 []) 1 ∧
      ((secondInFocus 0x32#32 []).eng.busy = false ∨
        ∀ r ∈ (secondInFocus 0x32#32 []).eng.latch.writtenFootprint, r.contains 258 = false) :=
  ⟨Memory.wf_nil, rfl, ⟨rfl, rfl, rfl⟩, .inr (by decide +kernel)⟩

theorem witness_KeyinitExpandsKey : State.reset.eng.hasAes = true := rfl

theorem witness_RkreadReadsSlot :
    (keyed State.reset).eng.hasAes = true ∧ (keyed State.reset).eng.keyValid = true ∧
      ∀ slot ∈ [0#8, 10#8, 11#8, 19#8], slot.toNat < 20 ∧ (11 ≤ slot.toNat → (keyed State.reset).eng.invValid = true) :=
  ⟨rfl, rfl, by decide⟩

theorem witness_RoundPrimitivesWriteDout : State.reset.eng.hasAes = true := rfl

theorem witness_SingleBlockCommandsWriteDout :
    (keyed State.reset).eng.hasAes = true ∧ (keyed State.reset).eng.keyValid = true ∧
      (keyed State.reset).eng.invValid = true := ⟨rfl, rfl, rfl⟩

theorem witness_SboxIsAffineOfInverse :
    ((0x00#8 = 0x00#8 → 0x00#8 = 0x00#8) ∧ (0x00#8 ≠ 0x00#8 → gmul 0x00#8 0x00#8 = 0x01#8)) ∧
      ((0x53#8 = 0x00#8 → 0xCA#8 = 0x00#8) ∧ (0x53#8 ≠ 0x00#8 → gmul 0x53#8 0xCA#8 = 0x01#8)) := by
  decide +kernel

theorem keyed_scheduleValid (s : State) : (keyed s).eng.ScheduleValid := by
  refine ⟨fun _ => rfl, fun _ r hr => ?_, fun _ m hm => ?_⟩
  · interval_cases r <;> rfl
  · interval_cases m <;> rfl

/-- A buffer of n bytes that ends at the top of 256 bytes of memory, the schedule loaded. -/
def topBuffer (n : Nat) : State := keyed (launched (prepared 8 (BitVec.ofNat 32 (256 - n)) (BitVec.ofNat 32 n) 0#32 0#32) 0x13)

theorem topBuffer_ready : ∀ n ∈ [0, 16, 32, 256], BlockBufferReady (topBuffer n) := by
  intro n hn
  simp only [List.mem_cons, List.not_mem_nil, or_false] at hn
  unfold BlockBufferReady PortOpen
  rcases hn with rfl | rfl | rfl | rfl <;> exact ⟨Memory.wf_nil, rfl, by decide +kernel, by decide +kernel, rfl⟩

/-- After any completion, a launch of another word with the registers rewritten but for ADDR, LEN, KADDR and KLEN. -/
theorem sameUnitsAndOperands_relaunched (t : State) (op : Byte) (din : Block) :
    SameUnitsAndOperands t { t with
      eng := { t.eng with busy := true, done := false, din := unblk din, latch := { t.eng.latch with op := op, din := din } }
      events := [] } :=
  ⟨rfl, rfl, rfl, rfl, rfl, rfl, rfl, rfl, rfl, rfl, rfl, rfl, rfl, rfl⟩

theorem witness_EcbTransformsEachBlock :
    (∀ n ∈ [0, 16, 32, 256], BlockBufferReady (topBuffer n)) ∧ (topBuffer 32).eng.keyValid = true ∧
      (topBuffer 32).eng.invValid = true ∧ 1 < (topBuffer 32).eng.latch.len.toNat / 16 :=
  ⟨topBuffer_ready, rfl, rfl, by decide +kernel⟩

theorem witness_CbcChainsCiphertextBlocks :
    BlockBufferReady (topBuffer 32) ∧ (topBuffer 32).eng.keyValid = true ∧ (topBuffer 32).eng.invValid = true :=
  ⟨topBuffer_ready 32 (by simp), rfl, rfl⟩

theorem witness_XorChainChainsBlocks : BlockBufferReady (topBuffer 256) := topBuffer_ready 256 (by simp)

theorem witness_EcbRoundTrip :
    (BlockBufferReady (topBuffer 32) ∧ (topBuffer 32).eng.ScheduleValid ∧ (topBuffer 32).eng.keyValid = true ∧
      (topBuffer 32).eng.invValid = true) ∧
    (BlockBufferReady (topBuffer 16) ∧ (topBuffer 16).eng.keyValid = true ∧
      (topBuffer 16).eng.rks = (topBuffer 32).eng.rks ∧ 0 < (topBuffer 32).eng.latch.len.toNat / 16 ∧
      0 < (topBuffer 16).eng.latch.len.toNat / 16 ∧
      readBlock (topBuffer 16).mem ((topBuffer 16).eng.latch.addr.toNat + 16 * 0) =
        readBlock (topBuffer 32).mem ((topBuffer 32).eng.latch.addr.toNat + 16 * 0)) :=
  ⟨⟨topBuffer_ready 32 (by simp), keyed_scheduleValid _, rfl, rfl⟩, topBuffer_ready 16 (by simp), rfl, rfl,
    by decide +kernel, by decide +kernel, by decide +kernel⟩

theorem witness_CbcRoundTrip :
    BlockBufferReady (topBuffer 256) ∧ (topBuffer 256).eng.ScheduleValid ∧ (topBuffer 256).eng.keyValid = true ∧
      (topBuffer 256).eng.invValid = true :=
  ⟨topBuffer_ready 256 (by simp), keyed_scheduleValid _, rfl, rfl⟩

theorem witness_XorChainRoundTrip : BlockBufferReady (topBuffer 32) := topBuffer_ready 32 (by simp)

theorem witness_CbcDiffusesEqualBlocks :
    BlockBufferReady (topBuffer 32) ∧ (topBuffer 32).eng.ScheduleValid ∧ (topBuffer 32).eng.keyValid = true ∧
      (topBuffer 32).eng.latch.len.toNat = 32 ∧
      readBlock (topBuffer 32).mem ((topBuffer 32).eng.latch.addr.toNat + 16) =
        readBlock (topBuffer 32).mem (topBuffer 32).eng.latch.addr.toNat :=
  ⟨topBuffer_ready 32 (by simp), keyed_scheduleValid _, rfl, by decide +kernel, by decide +kernel⟩

/-- STR_INIT with a key of n bytes that ends at the top of 4 KiB of memory, the 8-byte buffer at 0. -/
def topKey (n : Nat) : State := launched (prepared 12 0#32 8#32 (BitVec.ofNat 32 (4096 - n)) (BitVec.ofNat 32 n)) 0x30

theorem witness_StrInitKeysGenerator :
    ∀ n ∈ [1, 256], 1 ≤ (topKey n).eng.latch.klen.toNat ∧ (topKey n).eng.latch.klen.toNat ≤ 256 ∧
      (topKey n).eng.latch.kaddr.toNat + (topKey n).eng.latch.klen.toNat ≤ 2 ^ (topKey n).aw ∧
      PortOpen (topKey n) [(topKey n).eng.latch.keyRegion] := by
  unfold PortOpen; decide +kernel

theorem witness_StreamCipherIsSelfInverse :
    Memory.wf (topKey 256).mem ∧ 1 ≤ (topKey 256).eng.latch.klen.toNat ∧ (topKey 256).eng.latch.klen.toNat ≤ 256 ∧
      (topKey 256).eng.latch.kaddr.toNat + (topKey 256).eng.latch.klen.toNat ≤ 2 ^ (topKey 256).aw ∧
      (topKey 256).eng.latch.addr.toNat + (topKey 256).eng.latch.len.toNat ≤ 2 ^ (topKey 256).aw ∧
      PortOpen (topKey 256) [(topKey 256).eng.latch.buffer, (topKey 256).eng.latch.keyRegion] ∧
      (topKey 256).eng.latch.buffer.meets (topKey 256).eng.latch.keyRegion = false := by
  refine ⟨Memory.wf_nil, ?_⟩
  unfold PortOpen; decide +kernel

/-- The generator at the identity permutation, valid; the image at the top of 512 bytes of memory. -/
def identityGenerator (w : Nat) : State :=
  withGenerator ⟨identityPerm, 0#8, 0#8⟩ (launched (prepared 9 254#32 0#32 0#32 0#32) w)

theorem witness_StrXformXorsKeystream :
    Memory.wf (identityGenerator 0x31).mem ∧ (identityGenerator 0x31).eng.streamValid = true ∧
      (identityGenerator 0x31).eng.latch.addr.toNat + (identityGenerator 0x31).eng.latch.len.toNat ≤
        2 ^ (identityGenerator 0x31).aw ∧ PortOpen (identityGenerator 0x31) [(identityGenerator 0x31).eng.latch.buffer] :=
  ⟨Memory.wf_nil, rfl, by decide +kernel, rfl⟩

theorem witness_StrSaveWritesImage :
    Memory.wf (identityGenerator 0x32).mem ∧ (identityGenerator 0x32).eng.streamValid = true ∧
      (identityGenerator 0x32).eng.latch.addr.toNat + 258 ≤ 2 ^ (identityGenerator 0x32).aw ∧
      PortOpen (identityGenerator 0x32) [(identityGenerator 0x32).eng.latch.image] :=
  ⟨Memory.wf_nil, rfl, by decide +kernel, rfl⟩

/-- Every Byte occurs once among the 256 Bytes in order. -/
theorem count_all_bytes (v : Byte) : ((List.range 256).map (BitVec.ofNat 8)).count v = 1 := by
  refine List.count_eq_one_of_mem ?_ ?_
  · refine List.Nodup.map_on ?_ List.nodup_range
    intro a ha b hb h
    have := congrArg BitVec.toNat h
    simp only [BitVec.toNat_ofNat, List.mem_range] at this ha hb
    omega
  · exact List.mem_map.2 ⟨v.toNat, List.mem_range.2 v.isLt, by simp⟩

/-- STR_LOAD of an image that is all zero bytes. -/
def loadsZero : State := launched (prepared 9 254#32 0#32 0#32 0#32) 0x33

/-- STR_LOAD of an image that is the identity permutation. -/
def loadsIdentity : State :=
  { loadsZero with mem := (List.range 255).map fun k => (255 + k, BitVec.ofNat 8 (k + 1)) }

theorem witness_StrLoadRestoresOrRejects :
    (loadsIdentity.eng.latch.addr.toNat + 258 ≤ 2 ^ loadsIdentity.aw ∧
      PortOpen loadsIdentity [loadsIdentity.eng.latch.image] ∧
      ∀ v : Byte, (readBytes loadsIdentity.mem loadsIdentity.eng.latch.addr.toNat 256).count v = 1) ∧
    (loadsZero.eng.latch.addr.toNat + 258 ≤ 2 ^ loadsZero.aw ∧ PortOpen loadsZero [loadsZero.eng.latch.image] ∧
      ∃ v : Byte, (readBytes loadsZero.mem loadsZero.eng.latch.addr.toNat 256).count v ≠ 1) := by
  refine ⟨⟨by decide +kernel, rfl, ?_⟩, by decide +kernel, rfl, 0x01#8, by decide +kernel⟩
  have : readBytes loadsIdentity.mem loadsIdentity.eng.latch.addr.toNat 256 = (List.range 256).map (BitVec.ofNat 8) := by
    decide +kernel
  rw [this]
  exact count_all_bytes

theorem witness_EqualKeysAndForksGiveEqualGenerators :
    (∃ t, exec .strInit (topKey 3) = .next t ∧ t.eng.done = true ∧ (topKey 3).eng.done = false) ∧
    (∃ s u t, Memory.wf s.mem ∧ s.eng.PermutationValid ∧ s.eng.streamValid = true ∧
      s.eng.latch.addr.toNat + 258 ≤ 2 ^ s.aw ∧ PortOpen s [s.eng.latch.image] ∧ exec .strSave s = .next t ∧
      u.eng.latch.addr.toNat + 258 ≤ 2 ^ u.aw ∧ PortOpen u [u.eng.latch.image] ∧
      ∀ k, k < 258 → readByte u.mem (u.eng.latch.addr.toNat + k) = readByte t.mem (s.eng.latch.addr.toNat + k)) := by
  refine ⟨⟨_, (exec_eq_command _ _).trans (command_ok (by decide +kernel) (by decide +kernel) rfl), rfl, rfl⟩,
    identityGenerator 0x32, finish (setMem (writeBytes [] 254 (generatorImage ⟨identityPerm, 0#8, 0#8⟩)) (identityGenerator 0x33)),
    _, Memory.wf_nil, fun _ => count_all_bytes, rfl, by decide +kernel, rfl,
    (exec_eq_command _ _).trans (command_ok (by decide +kernel) (by decide +kernel) rfl),
    by decide +kernel, rfl, fun _ _ => rfl⟩

/-- A CCU command with an empty buffer, and with one on either side of its key. -/
theorem witness_ChainCommandsFeedBackCiphertext :
    ChainReady (launched (prepared 8 0#32 0#32 255#32 1#32) 0x40) ∧
      ChainReady (launched (prepared 8 4#32 252#32 0#32 4#32) 0x40) ∧
      ChainReady (launched (prepared 8 0#32 8#32 8#32 248#32) 0x41) := by
  unfold ChainReady PortOpen
  refine ⟨⟨Memory.wf_nil, ?_⟩, ⟨Memory.wf_nil, ?_⟩, ⟨Memory.wf_nil, ?_⟩⟩ <;> decide +kernel

theorem chained_ready : ChainReady (chained []) ∧ ChainReady (chained [(0x107, 0x01#8)]) := by
  unfold ChainReady PortOpen; decide +kernel

theorem witness_ChainRoundTrip : ChainReady (chained []) := chained_ready.1

/-- The difference in the last byte of the buffer. -/
theorem witness_ChainDifferencePropagates :
    ChainReady (chained []) ∧ ChainReady (chained [(0x107, 0x01#8)]) ∧
      (chained [(0x107, 0x01#8)]).eng.latch = (chained []).eng.latch ∧
      (chained [(0x107, 0x01#8)]).eng.chainFbInit = (chained []).eng.chainFbInit ∧
      7 < (chained []).eng.latch.len.toNat ∧
      (∀ j, j < (chained []).eng.latch.klen.toNat →
        readByte (chained [(0x107, 0x01#8)]).mem ((chained []).eng.latch.kaddr.toNat + j) =
          readByte (chained []).mem ((chained []).eng.latch.kaddr.toNat + j)) ∧
      (∀ n, n < (chained []).eng.latch.len.toNat →
        readByte (chained [(0x107, 0x01#8)]).mem ((chained []).eng.latch.addr.toNat + n) =
          readByte (chained []).mem ((chained []).eng.latch.addr.toNat + n) ^^^ (if n = 7 then 0x01#8 else 0x00#8)) := by
  refine ⟨chained_ready.1, chained_ready.2, rfl, rfl, ?_, ?_, ?_⟩ <;>
    decide +kernel

/-- The invariants hold at reset, and a launched machine that completes takes a step. -/
theorem launched_step : ∃ t, step (launched State.reset 0x20) = .next t := ⟨_, rfl⟩

theorem witness_MemoryStaysValid :
    (launched State.reset 0x20).MemoryValid ∧ ∃ t, step (launched State.reset 0x20) = .next t :=
  ⟨⟨Memory.wf_nil, by simp [launched, State.withFetchWord, armCommand, State.reset, State.resetWith]⟩, launched_step⟩

theorem witness_FlagsStayConsistent :
    (launched State.reset 0x20).Every Engine.FlagsConsistent ∧ ∃ t, step (launched State.reset 0x20) = .next t := by
  refine ⟨?_, launched_step⟩
  unfold State.Every Engine.FlagsConsistent; decide +kernel

/-- One instance with a valid schedule and a valid generator, its completion next. -/
def keyedAndValid : State := withGenerator ⟨identityPerm, 0#8, 0#8⟩ (keyed (launched State.reset 0x20))

theorem keyedAndValid_step : ∃ t, step keyedAndValid = .next t := ⟨_, rfl⟩

theorem witness_KeyScheduleStaysValid :
    keyedAndValid.Every Engine.ScheduleValid ∧ ∃ t, step keyedAndValid = .next t := by
  refine ⟨?_, keyedAndValid_step⟩
  intro e he
  have : e = keyedAndValid.eng := by simpa [State.engines, keyedAndValid, withGenerator, keyed, launched,
    State.withFetchWord, armCommand, State.reset, State.resetWith] using he
  subst this
  exact keyed_scheduleValid (launched State.reset 0x20)

theorem witness_PermutationStaysValid :
    keyedAndValid.Every Engine.PermutationValid ∧ ∃ t, step keyedAndValid = .next t := by
  refine ⟨?_, keyedAndValid_step⟩
  intro e he
  have : e = keyedAndValid.eng := by simpa [State.engines, keyedAndValid, withGenerator, keyed, launched,
    State.withFetchWord, armCommand, State.reset, State.resetWith] using he
  subst this
  exact fun _ => count_all_bytes

/-- The idle instance polled while the other is busy. -/
def pollsIdle : State := { otherBusy with events := [rd 0 .status] }

theorem next_of_isSome {r : Result} (h : (nextState r).isSome = true) : ∃ t, r = .next t := by
  cases r <;> simp_all [nextState]

theorem pollsIdle_step : ∃ t, step pollsIdle = .next t := next_of_isSome (by decide +kernel)

theorem witness_FootprintsStayDisjoint : pollsIdle.FootprintsDisjoint ∧ ∃ t, step pollsIdle = .next t := by
  refine ⟨?_, pollsIdle_step⟩
  unfold State.FootprintsDisjoint; decide +kernel

theorem witness_StepChangesOneInstanceAndNoParameter : ∃ t, step pollsIdle = .next t := pollsIdle_step

theorem witness_ValidFlagsSetAndClearedAsSpecified :
    (∀ n rest, (launched State.reset 0x110).events ≠ .reset n :: rest) ∧
      (∃ t f, step (launched State.reset 0x110) = .next t ∧
        (launched State.reset 0x110).engines[0]? = some (launched State.reset 0x110).eng ∧ t.engines[0]? = some f ∧
        (launched State.reset 0x110).eng.keyValid = false ∧ f.keyValid = true ∧
        (launched State.reset 0x110).eng.invValid = false ∧ f.invValid = true) ∧
      (∃ t f, step (keyed (launched State.reset 0x10)) = .next t ∧ t.engines[0]? = some f ∧
        (keyed (launched State.reset 0x10)).eng.invValid = true ∧ f.invValid = false ∧ f.keyValid = true) :=
  ⟨fun _ _ h => (by cases h), ⟨_, _, rfl, rfl, rfl, rfl, rfl, rfl, rfl⟩, ⟨_, _, rfl, rfl, rfl, rfl, rfl⟩⟩

end Sys2Proof.Tests
end

section
/-! The scope of one step (00_scope.md R9, R14; 60_exceptions.md R243): memory stays inside its bytes and in canonical form,
and at most one instance changes, keeping its parameters. Both are read off the moves of `step_move`. -/

namespace Sys2Proof.Machine

/-! ## Taking an event and moving the focus -/

/-- Taking an event and bringing an instance into focus keeps memory, AW and the instances. -/
theorem focus_popEvent_frame {s u : State} {k : Nat} (hf : (popEvent s).focus k = some u) :
    u.mem = s.mem ∧ u.aw = s.aw ∧ u.engines = s.engines := by
  obtain ⟨hengines, -, -, hu⟩ := State.focus_eq_some hf
  exact ⟨by rw [hu]; rfl, by rw [hu]; rfl, hengines⟩

/-- A register read changes only the value returned and the draw counter (R206). -/
theorem hostRead_frame (r : Reg) (s : State) :
    hostRead r s = { s with rdata := (hostRead r s).rdata, draws := (hostRead r s).draws } := by
  unfold hostRead
  split <;> rfl

/-! ## Only the instance in focus changes -/

/-- `t` has the instances of `u` but for the one in focus, and every parameter of `u` (R9, R243). -/
structure ChangesOnlyFocus (u t : State) : Prop where
  aw : t.aw = u.aw
  left : t.left = u.left
  right : t.right = u.right
  base : t.eng.base = u.eng.base
  hasAes : t.eng.hasAes = u.eng.hasAes
  chainFbInit : t.eng.chainFbInit = u.eng.chainFbInit

namespace ChangesOnlyFocus

/-- The instances afterwards: the one in focus replaced. -/
theorem engines_eq_set {u t : State} (h : ChangesOnlyFocus u t) : t.engines = u.engines.set u.number t.eng := by
  rw [← State.engines_set]
  simp only [State.engines, h.left, h.right]

/-- There are as many instances as before. -/
theorem length_engines {u t : State} (h : ChangesOnlyFocus u t) : t.engines.length = u.engines.length := by
  rw [h.engines_eq_set, List.length_set]

/-- Every instance but the one in focus is as before. -/
theorem getElem?_engines_of_ne {u t : State} (h : ChangesOnlyFocus u t) {j : Nat} (hj : j ≠ u.number) :
    t.engines[j]? = u.engines[j]? := by
  rw [h.engines_eq_set, List.getElem?_set_ne hj.symm]

/-- Every instance, the one in focus too, keeps its parameters. -/
theorem keeps_parameters {u t : State} (h : ChangesOnlyFocus u t) {k : Nat} {e : Engine}
    (he : u.engines[k]? = some e) : ∃ f : Engine, t.engines[k]? = some f ∧
      f.base = e.base ∧ f.hasAes = e.hasAes ∧ f.chainFbInit = e.chainFbInit := by
  by_cases hk : k = u.number
  · subst hk
    obtain rfl : u.eng = e := Option.some.inj (u.engines_number.symm.trans he)
    have hlt : u.number < u.engines.length := (List.getElem?_eq_some_iff.1 he).1
    exact ⟨t.eng, by rw [h.engines_eq_set, List.getElem?_set_self hlt], h.base, h.hasAes, h.chainFbInit⟩
  · exact ⟨e, (h.getElem?_engines_of_ne hk).trans he, rfl, rfl, rfl⟩

end ChangesOnlyFocus

theorem hostWrite_changesOnlyFocus {r : Reg} {v : Word} {s t : State} (h : hostWrite r v s = .next t) :
    ChangesOnlyFocus s t := by
  obtain ⟨ht, -, -, -, -, -, hbase, haes, hfb⟩ := hostWrite_frame h
  exact ⟨by rw [ht], by rw [ht], by rw [ht], hbase, haes, hfb⟩

theorem hostRead_changesOnlyFocus (r : Reg) (s : State) : ChangesOnlyFocus s (hostRead r s) := by
  rw [hostRead_frame]
  exact ⟨rfl, rfl, rfl, rfl, rfl, rfl⟩

theorem raiseError_changesOnlyFocus (c : ErrCode) (s : State) : ChangesOnlyFocus s (raiseError c s) :=
  ⟨rfl, rfl, rfl, rfl, rfl, rfl⟩

theorem resetEngine_changesOnlyFocus (s : State) : ChangesOnlyFocus s (resetEngine s) :=
  ⟨rfl, rfl, rfl, rfl, rfl, rfl⟩

theorem effectOf_changesOnlyFocus {i : Instr} {s t : State} (h : effectOf i s s = .ok t) : ChangesOnlyFocus s t := by
  rw [effectOf_frame h]
  exact ⟨rfl, rfl, rfl, rfl, rfl, rfl⟩

/-- Completing a command changes only the instance that completes. -/
theorem exec_changesOnlyFocus {i : Instr} {s t : State} (h : exec i s = .next t) : ChangesOnlyFocus s t := by
  rcases exec_cases h with ⟨c, -, rfl⟩ | ⟨-, u, hu, rfl⟩
  · exact raiseError_changesOnlyFocus c s
  · obtain ⟨haw, hleft, hright, hbase, haes, hfb⟩ := effectOf_changesOnlyFocus hu
    exact ⟨haw, hleft, hright, hbase, haes, hfb⟩

/-- Every move happens at the focus of some state with the AW and the instances of `s`. -/
theorem Move.changesOnlyFocus {s t : State} (h : Move s t) :
    ∃ u : State, u.aw = s.aw ∧ u.engines = s.engines ∧ ChangesOnlyFocus u t := by
  have hfocus {k : Nat} {u : State} (hf : (popEvent s).focus k = some u) (ht : ChangesOnlyFocus u t) :
      ∃ u : State, u.aw = s.aw ∧ u.engines = s.engines ∧ ChangesOnlyFocus u t := by
    obtain ⟨-, haw, hengines⟩ := focus_popEvent_frame hf
    exact ⟨u, haw, hengines, ht⟩
  cases h with
  | idle | memWrite | memRead => exact ⟨s, rfl, rfl, rfl, rfl, rfl, rfl, rfl, rfl⟩
  | quiet hf => exact hfocus hf ⟨rfl, rfl, rfl, rfl, rfl, rfl⟩
  | write hf h => exact hfocus hf (hostWrite_changesOnlyFocus h)
  | read hf => exact hfocus hf (hostRead_changesOnlyFocus _ _)
  | illegal hf => exact hfocus hf (raiseError_changesOnlyFocus _ _)
  | complete hf _ _ h => exact hfocus hf (exec_changesOnlyFocus h)
  | reset hf => exact hfocus hf (resetEngine_changesOnlyFocus _)

/-- Settles O58: every move changes only the instance in focus, which keeps its parameters. -/
theorem stepChangesOneInstanceAndNoParameter : Obligations.StepChangesOneInstanceAndNoParameter := by
  unfold Obligations.StepChangesOneInstanceAndNoParameter
  intro s t hstep
  obtain ⟨u, haw, hengines, h⟩ := (step_move hstep).changesOnlyFocus
  rw [← haw, ← hengines]
  exact ⟨h.aw, h.length_engines, ⟨u.number, fun _ => h.getElem?_engines_of_ne⟩, fun _ _ => h.keeps_parameters⟩

/-! ## A footprint whose range check passed lies inside memory (R222, R229) -/

theorem requireRange_eq_none_iff (s : State) (r : Region) :
    requireRange s r = none ↔ r.base + r.size ≤ 2 ^ s.aw := by
  simp [requireRange]

/-- Every command checks the range of every region of its footprint (R66, R222). -/
theorem requireRange_mem_checksOf {i : Instr} {s : State} {r : Region} (hr : r ∈ footprint i s.eng.latch) :
    requireRange s r ∈ checksOf i s := by
  cases i <;> simp only [footprint, writtenFootprint, readOnlyFootprint, List.append_nil, List.nil_append,
    List.mem_append, List.mem_singleton, List.not_mem_nil] at hr
  case chnEnc | chnDec => rcases hr with rfl | rfl <;> simp [checksOf]
  all_goals (subst hr; simp [checksOf])

/-- Once the checks have passed, the footprint lies inside memory. -/
theorem footprint_within {i : Instr} {s : State} {r : Region} (hc : firstError (checksOf i s) = none)
    (hr : r ∈ footprint i s.eng.latch) : r.base + r.size ≤ 2 ^ s.aw :=
  (requireRange_eq_none_iff s r).1 (firstError_eq_none.1 hc _ (requireRange_mem_checksOf hr))

/-! ## Memory stays valid -/

/-- Whether memory is valid depends on nothing but memory and AW. -/
theorem State.MemoryValid.congr {s t : State} (hs : s.MemoryValid) (hm : t.mem = s.mem) (ha : t.aw = s.aw) :
    t.MemoryValid := by
  unfold State.MemoryValid
  rw [hm, ha]
  exact hs

@[simp] theorem length_generatorImage (g : Generator) : (generatorImage g).length = 258 := by
  simp [generatorImage]

section Effects
variable {s : State} (hs : s.MemoryValid)
include hs

/-- The loop of a block buffer command stays in its buffer (R140). -/
theorem bufferResult_memoryValid (f : Block → Block → Block × Block)
    (hr : s.eng.latch.addr.toNat + s.eng.latch.len.toNat ≤ 2 ^ s.aw) : (setMem (bufferResult f s) s).MemoryValid :=
  ⟨blockLoop_wf hs.1 _ _ _ _, blockLoop_within hs.2 _ _ _ _ (by omega)⟩

/-- The loop of a CCU command stays in its buffer (R191, R192). -/
theorem chainResult_memoryValid (next : Byte → Byte → Byte)
    (hr : s.eng.latch.addr.toNat + s.eng.latch.len.toNat ≤ 2 ^ s.aw) : (setMem (chainResult next s) s).MemoryValid :=
  ⟨chainLoop_wf hs.1 _ _ _ _ _ _ _, chainLoop_within hs.2 _ _ _ _ _ _ _ (by omega)⟩

/-- The loop of STR_XFORM stays in its buffer (R174). -/
theorem xformEffect_memoryValid (hr : s.eng.latch.addr.toNat + s.eng.latch.len.toNat ≤ 2 ^ s.aw) :
    (xformEffect s).MemoryValid := by
  rw [xformEffect_eq]
  exact ⟨xformLoop_wf hs.1 _ _ _, xformLoop_within hs.2 _ _ _ hr⟩

/-- Bytes written inside memory keep it valid. -/
theorem writeBytes_memoryValid {a : Nat} {vs : List Byte} (hr : a + vs.length ≤ 2 ^ s.aw) :
    (setMem (writeBytes s.mem a vs) s).MemoryValid :=
  ⟨writeBytes_wf hs.1 _ _, writeBytes_within hs.2 _ hr⟩

/-- A command whose written footprint lies inside memory keeps it valid: the writing commands because their loops stay in
the footprint, the others because they leave memory as it was. -/
theorem effectOf_memoryValid {i : Instr} {t : State} (h : effectOf i s s = .ok t)
    (hr : ∀ r ∈ writtenFootprint i s.eng.latch, r.base + r.size ≤ 2 ^ s.aw) : t.MemoryValid := by
  have haw := (effectOf_changesOnlyFocus h).aw
  cases i <;> simp only [effectOf, Except.ok.injEq] at h
  case aesEcbEnc | aesEcbDec | aesCbcEnc | aesCbcDec | xorChainEnc | xorChainDec =>
    exact h ▸ bufferResult_memoryValid hs _ (hr s.eng.latch.buffer (by simp [writtenFootprint]))
  case chnEnc | chnDec =>
    exact h ▸ chainResult_memoryValid hs _ (hr s.eng.latch.buffer (by simp [writtenFootprint]))
  case strXform => exact h ▸ xformEffect_memoryValid hs (hr s.eng.latch.buffer (by simp [writtenFootprint]))
  case strSave =>
    refine h ▸ writeBytes_memoryValid hs ?_
    rw [length_generatorImage]
    exact hr s.eng.latch.image (by simp [writtenFootprint])
  case strInit => exact hs.congr (by rw [← h, strInitEffect_eq]) haw
  case strLoad => exact hs.congr (by rw [(strLoadEffect_eq_ok h).2]) haw
  all_goals exact hs.congr (by simp [← h]) haw

/-- Completing a command keeps memory valid. -/
theorem exec_memoryValid {i : Instr} {t : State} (h : exec i s = .next t) : t.MemoryValid := by
  rcases exec_cases h with ⟨c, -, rfl⟩ | ⟨hc, u, hu, rfl⟩
  · exact hs.congr rfl rfl
  · have hvalid : u.MemoryValid :=
      effectOf_memoryValid hs hu fun r hr => footprint_within hc (List.mem_append_left _ hr)
    exact hvalid.congr rfl rfl

/-- A reset keeps memory valid, though it may leave free values in it (R252). -/
theorem resetEngine_memoryValid : (resetEngine s).MemoryValid := by
  show Memory.wf (memoryAfterReset s) ∧ Memory.within (memoryAfterReset s) s.aw
  unfold memoryAfterReset
  split
  · exact ⟨scrambleRegions_wf hs.1 _ _ _, scrambleRegions_within hs.2 _ _⟩
  · exact hs

/-- Every move keeps memory valid. -/
theorem Move.memoryValid {t : State} (h : Move s t) : t.MemoryValid := by
  have hfocus {k : Nat} {u : State} (hf : (popEvent s).focus k = some u) : u.MemoryValid := by
    obtain ⟨hmem, haw, -⟩ := focus_popEvent_frame hf
    exact hs.congr hmem haw
  cases h with
  | idle | memRead => exact hs.congr rfl rfl
  | quiet hf => exact hfocus hf
  | write hf h =>
    obtain ⟨ht, -⟩ := hostWrite_frame h
    exact (hfocus hf).congr (by rw [ht]) (by rw [ht])
  | read hf => exact (hfocus hf).congr (by rw [hostRead_frame]) (by rw [hostRead_frame])
  | memWrite hr => exact (writeBytes_memoryValid hs hr).congr rfl rfl
  | illegal hf => exact (hfocus hf).congr rfl rfl
  | complete hf _ _ h => exact exec_memoryValid (hfocus hf) h
  | reset hf => exact resetEngine_memoryValid (hfocus hf)

end Effects

/-- Settles O52: each move of `step_move` keeps memory valid; a command writes only the footprint its range check passed. -/
theorem memoryStaysValid : Obligations.MemoryStaysValid :=
  fun _ _ hs h => (step_move h).memoryValid hs

end Sys2Proof.Machine
end

section
/-! What one step does to one instance, and what the effect of a command writes: the two inversions from which the
invariants of the instances are read off (10_state.md R24 to R31, R39 to R45). -/

namespace Sys2Proof.Machine

/-! ## What a step does to one instance -/

/-- Everything a step of `s` can do to one instance. -/
inductive InstanceMove (s : State) : Engine → Engine → Prop
  /-- The instance takes no part in the step. -/
  | same (e : Engine) : InstanceMove s e e
  /-- A register write at the instance. -/
  | write {r : Reg} {v : Word} {u t : State} (h : hostWrite r v u = .next t) : InstanceMove s u.eng t.eng
  /-- The completion of an illegal word. -/
  | illegal {e : Engine} (hb : e.busy = true) : InstanceMove s e (e.flagsAtError .illegalCmd)
  /-- The completion of a command. -/
  | complete {i : Instr} {u t : State} (hb : u.eng.busy = true) (hi : u.eng.latch.command = .ok i)
      (h : exec i u = .next t) : InstanceMove s u.eng t.eng
  /-- The reset of the instance. -/
  | reset {n : Nat} (u : State) (he : s.events.head? = some (.reset n)) : InstanceMove s u.eng (resetEngine u).eng

/-- An instance is as before, or it is the one in focus. -/
theorem ChangesOnlyFocus.getElem?_cases {u t : State} (h : ChangesOnlyFocus u t) {k : Nat} {e f : Engine}
    (he : u.engines[k]? = some e) (hf : t.engines[k]? = some f) : f = e ∨ (e = u.eng ∧ f = t.eng) := by
  by_cases hk : k = u.number
  · subst hk
    have hlt : u.number < u.engines.length := (List.getElem?_eq_some_iff.1 he).1
    rw [h.engines_eq_set, List.getElem?_set_self hlt] at hf
    exact .inr ⟨Option.some.inj (he.symm.trans u.engines_number), (Option.some.inj hf).symm⟩
  · rw [h.getElem?_engines_of_ne hk, he] at hf
    exact .inl (Option.some.inj hf).symm

/-- The inversion of `step` at one instance: the moves of `step_move`, seen from the instance with number `k`. -/
theorem Move.instanceMove {s t : State} (h : Move s t) {k : Nat} {e f : Engine} (he : s.engines[k]? = some e)
    (hf : t.engines[k]? = some f) : InstanceMove s e f := by
  have hfocus {j : Nat} {u : State} (hu : (popEvent s).focus j = some u) (ht : ChangesOnlyFocus u t)
      (hmove : InstanceMove s u.eng t.eng) : InstanceMove s e f := by
    obtain ⟨-, -, hengines⟩ := focus_popEvent_frame hu
    rcases ht.getElem?_cases (hengines ▸ he) hf with rfl | ⟨rfl, rfl⟩
    · exact .same _
    · exact hmove
  cases h with
  | idle | memWrite | memRead =>
    obtain rfl : e = f := Option.some.inj (he.symm.trans hf)
    exact .same _
  | quiet hu => exact hfocus hu ⟨rfl, rfl, rfl, rfl, rfl, rfl⟩ (.same _)
  | write hu h => exact hfocus hu (hostWrite_changesOnlyFocus h) (.write h)
  | read hu =>
    refine hfocus hu (hostRead_changesOnlyFocus _ _) ?_
    rw [hostRead_frame]
    exact .same _
  | illegal hu hb => exact hfocus hu (raiseError_changesOnlyFocus _ _) (.illegal hb)
  | complete hu hb hi h => exact hfocus hu (exec_changesOnlyFocus h) (.complete hb hi h)
  | reset hu hr => exact hfocus hu (resetEngine_changesOnlyFocus _) (.reset _ hr)

/-- What every move of an instance keeps, every step keeps at every instance. -/
theorem every_of_instanceMove {P : Engine → Prop} {s t : State}
    (hP : ∀ e f, InstanceMove s e f → P e → P f) (hs : s.Every P) (h : step s = .next t) : t.Every P := by
  intro f hf
  obtain ⟨k, hk⟩ := List.mem_iff_getElem?.1 hf
  have hmove := step_move h
  obtain ⟨u, -, hengines, hfocus⟩ := hmove.changesOnlyFocus
  have hlt : k < s.engines.length := by
    rw [← hengines, ← hfocus.length_engines]
    exact (List.getElem?_eq_some_iff.1 hk).1
  have he : s.engines[k]? = some s.engines[k] := List.getElem?_eq_getElem hlt
  exact hP _ _ (hmove.instanceMove he hk) (hs _ (List.getElem_mem hlt))

/-! ## What a register write does -/

/-- A write to any register but CMD stores into the instance in focus and always answers (R200). -/
theorem hostWrite_of_ne_cmd {r : Reg} (hr : r ≠ .cmd) (v : Word) (s : State) :
    hostWrite r v s = .next { s with eng := storeRegister s.aw s.eng r v } := if_neg hr

/-- What a register write can do to the instance in focus: set OVR, launch, or store a value. -/
theorem hostWrite_eng_cases {r : Reg} {v : Word} {s t : State} (h : hostWrite r v s = .next t) :
    t.eng = s.eng.setOverrun ∨ t.eng = launchEngine s.eng v ∨ t.eng = storeRegister s.aw s.eng r v := by
  by_cases hr : r = .cmd
  · subst hr
    simp only [hostWrite, if_true, writeCmd] at h
    split at h
    · cases h; exact .inl rfl
    · simp only [launch] at h
      split at h
      · cases h
      · split at h
        · cases h
        · cases h; exact .inr (.inl rfl)
  · rw [hostWrite_of_ne_cmd hr] at h
    cases h
    exact .inr (.inr rfl)

/-! ## What the effect of a command writes -/

/-- Everything the effect of a command can be, by what it writes (R39, R42, R44, R66). -/
inductive Effect (i : Instr) (s : State) : State → Prop
  /-- DOUT, and nothing else. -/
  | dout (b : Block)
      (hop : i.opcode ∈ [0x11#8, 0x12#8, 0x19#8, 0x20#8, 0x21#8, 0x22#8, 0x23#8, 0x24#8, 0x25#8]) :
      Effect i s (setDout b s)
  /-- Memory in the written footprint, and nothing else. -/
  | mem (m : Memory) (hread : Memory.wf s.mem → ∀ a, (∀ r ∈ writtenFootprint i s.eng.latch, r.contains a = false) →
      readByte m a = readByte s.mem a) : Effect i s (setMem m s)
  /-- The key schedule with its flags (R119). -/
  | loadKey {dec : Bool} (hi : i = .aesKeyinit dec) : Effect i s (loadKey dec s)
  /-- The generator keyed (R173). -/
  | strInit (hi : i = .strInit) : Effect i s (strInitEffect s)
  /-- The generator advanced, and memory in the written footprint (R174). -/
  | strXform (hi : i = .strXform) : Effect i s (xformEffect s)
  /-- The generator loaded from an image (R176). -/
  | strLoad {t : State} (hi : i = .strLoad) (h : strLoadEffect s = .ok t) : Effect i s t

/-- A block buffer command leaves every byte outside its buffer (R140). -/
theorem readByte_bufferResult_other {s : State} (hm : Memory.wf s.mem) (f : Block → Block → Block × Block) {a : Nat}
    (ha : s.eng.latch.buffer.contains a = false) : readByte (bufferResult f s) a = readByte s.mem a := by
  have hout := (Region.contains_eq_false_iff _ _).1 ha
  simp only [Latch.buffer] at hout
  exact readByte_blockLoop_other hm _ _ _ _ (by omega)

/-- A CCU command leaves every byte outside its buffer (R191, R192). -/
theorem readByte_chainResult_other {s : State} (hm : Memory.wf s.mem) (next : Byte → Byte → Byte) {a : Nat}
    (ha : s.eng.latch.buffer.contains a = false) : readByte (chainResult next s) a = readByte s.mem a := by
  have hout := (Region.contains_eq_false_iff _ _).1 ha
  simp only [Latch.buffer] at hout
  exact readByte_chainLoop_other hm _ _ _ _ _ _ _ (by omega)

/-- The inversion of `effectOf`. -/
theorem effect_of_effectOf {i : Instr} {s t : State} (h : effectOf i s s = .ok t) : Effect i s t := by
  cases i <;> simp only [effectOf, Except.ok.injEq] at h
  case aesKeyinit dec => exact h ▸ .loadKey rfl
  case aesEcbEnc | aesEcbDec | aesCbcEnc | aesCbcDec | xorChainEnc | xorChainDec =>
    exact h ▸ .mem _ fun hm a ha => readByte_bufferResult_other hm _ (ha _ (List.mem_singleton.2 rfl))
  case chnEnc | chnDec =>
    exact h ▸ .mem _ fun hm a ha => readByte_chainResult_other hm _ (ha _ (List.mem_singleton.2 rfl))
  case strSave =>
    refine h ▸ .mem _ fun hm a ha => readByte_writeBytes_other hm ?_
    rw [length_generatorImage]
    exact (Region.contains_eq_false_iff _ _).1 (ha s.eng.latch.image (List.mem_singleton.2 rfl))
  case strInit => exact h ▸ .strInit rfl
  case strXform => exact h ▸ .strXform rfl
  case strLoad => exact .strLoad rfl h
  all_goals exact h ▸ .dout _ (by simp [Instr.opcode])

/-- Everything the meaning of a command can do when it answers a next state: complete with an error code, or with one of
the effects. -/
theorem exec_effect_cases {i : Instr} {s t : State} (h : exec i s = .next t) :
    (∃ c, c ≠ .none ∧ t = raiseError c s) ∨ ∃ u, effectOf i s s = .ok u ∧ Effect i s u ∧ t = finish u := by
  rcases exec_cases h with herr | ⟨-, u, hu, rfl⟩
  · exact .inl herr
  · exact .inr ⟨u, hu, effect_of_effectOf hu, rfl⟩

end Sys2Proof.Machine
end

section
/-! The invariants of an instance (R26, R28, R30, R43, R45): each move of an instance keeps them. -/

namespace Sys2Proof.Machine

/-! ## STATUS stays consistent (R24, R26, R28) -/

/-- Consistency depends on DONE, ERR, ERRCODE and BUSY only. -/
theorem Engine.FlagsConsistent.congr {e f : Engine} (h : e.FlagsConsistent) (hdone : f.done = e.done)
    (herr : f.err = e.err) (hcode : f.errcode = e.errcode) (hbusy : f.busy = e.busy) : f.FlagsConsistent := by
  unfold Engine.FlagsConsistent
  rw [hdone, herr, hcode, hbusy]
  exact h

/-- With DONE, ERR and ERRCODE cleared STATUS is consistent. -/
theorem Engine.flagsConsistent_of_cleared {e : Engine} (hdone : e.done = false) (herr : e.err = false)
    (hcode : e.errcode = .none) : e.FlagsConsistent := by
  simp [Engine.FlagsConsistent, hdone, herr, hcode]

/-- Write 1 to clear keeps STATUS consistent: ERR and ERRCODE are cleared together (R23). -/
theorem Engine.FlagsConsistent.writeStatus {e : Engine} (h : e.FlagsConsistent) (v : Word) :
    (e.writeStatus v).FlagsConsistent := by
  obtain ⟨hnot, hcode, hbusy⟩ := h
  refine ⟨?_, ?_, ?_⟩
  · rintro ⟨hd, he⟩
    simp only [writeStatus_done, writeStatus_err, Bool.and_eq_true] at hd he
    exact hnot ⟨hd.1, he.1⟩
  · rw [writeStatus_errcode, writeStatus_err]
    cases v.getLsbD 2 <;> simp [hcode]
  · intro hb
    obtain ⟨hd, he⟩ := hbusy hb
    simp [hd, he]

/-- Every register write but a launch keeps STATUS consistent: only STATUS holds its flags. -/
theorem Engine.FlagsConsistent.storeRegister {e : Engine} (h : e.FlagsConsistent) (aw : Nat) (r : Reg) (v : Word) :
    (Machine.storeRegister aw e r v).FlagsConsistent := by
  cases r with
  | status => exact h.writeStatus v
  | _ => exact h.congr rfl rfl rfl rfl

/-- A completion with error of a busy instance: DONE was 0, and the code is not NONE (R226). -/
theorem Engine.FlagsConsistent.flagsAtError {e : Engine} (h : e.FlagsConsistent) (hb : e.busy = true) {c : ErrCode}
    (hc : c ≠ .none) : (e.flagsAtError c).FlagsConsistent := by
  have hdone := (h.2.2 hb).1
  simp [Engine.FlagsConsistent, hdone, hc]

/-- A completion without error of a busy instance: ERR was 0 (R202). -/
theorem Engine.FlagsConsistent.flagsAtFinish {e : Engine} (h : e.FlagsConsistent) (hb : e.busy = true) :
    e.flagsAtFinish.FlagsConsistent := by
  obtain ⟨-, hcode, hbusy⟩ := h
  have herr := (hbusy hb).2
  simp [Engine.FlagsConsistent, herr, hcode.2 herr]

/-- Completing a command keeps STATUS consistent. -/
theorem exec_flagsConsistent {i : Instr} {s t : State} (hb : s.eng.busy = true) (hs : s.eng.FlagsConsistent)
    (h : exec i s = .next t) : t.eng.FlagsConsistent := by
  rcases exec_effect_cases h with ⟨c, hc, rfl⟩ | ⟨u, hu, -, rfl⟩
  · exact hs.flagsAtError hb hc
  · have hframe := effectOf_frame hu
    have hbusy : u.eng.busy = s.eng.busy := by rw [hframe]
    refine Engine.FlagsConsistent.flagsAtFinish (hs.congr ?_ ?_ ?_ hbusy) (hbusy.trans hb) <;> rw [hframe]

theorem InstanceMove.flagsConsistent {s : State} {e f : Engine} (h : InstanceMove s e f) (he : e.FlagsConsistent) :
    f.FlagsConsistent := by
  cases h with
  | same => exact he
  | write h =>
    rcases hostWrite_eng_cases h with ht | ht | ht <;> rw [ht]
    · exact he.congr rfl rfl rfl rfl
    · exact Engine.flagsConsistent_of_cleared rfl rfl rfl
    · exact he.storeRegister _ _ _
  | illegal hb => exact he.flagsAtError hb (by decide)
  | complete hb _ h => exact exec_flagsConsistent hb he h
  | reset u => exact Engine.flagsConsistent_of_cleared rfl rfl rfl

/-- Settles O53: a launch clears the flags, a completion sets exactly one of them, and a STATUS write only clears. -/
theorem flagsStayConsistent : Obligations.FlagsStayConsistent :=
  fun _ _ hs h => every_of_instanceMove (fun _ _ hmove => hmove.flagsConsistent) hs h

/-! ## The key schedule stays valid (R30, R43) -/

/-- Validity of the schedule depends on RKS, KEY_VALID and INV_VALID only. -/
theorem Engine.ScheduleValid.congr {e f : Engine} (h : e.ScheduleValid) (hrks : f.rks = e.rks)
    (hkey : f.keyValid = e.keyValid) (hinv : f.invValid = e.invValid) : f.ScheduleValid := by
  unfold Engine.ScheduleValid Engine.slot
  rw [hrks, hkey, hinv]
  exact h

/-- With KEY_VALID and INV_VALID clear the schedule is valid, whatever RKS holds. -/
theorem Engine.scheduleValid_of_invalid {e : Engine} (hkey : e.keyValid = false) (hinv : e.invValid = false) :
    e.ScheduleValid := by
  simp [Engine.ScheduleValid, hkey, hinv]

/-- Slots 0 to 10 after AES_KEYINIT: the forward keys (R119). -/
theorem Engine.slot_keySchedule_forward {e : Engine} {k : Block} {dec : Bool} {d : Nat}
    (he : e.rks = keySchedule k dec d) {r : Nat} (hr : r ≤ 10) : e.slot r = roundKey k r := by
  unfold Engine.slot
  rw [he]
  interval_cases r <;> rfl

/-- Slots 11 to 19 after AES_KEYINIT with DEC = 1: the inverse keys (R115, R119). -/
theorem Engine.slot_keySchedule_inverse {e : Engine} {k : Block} {d : Nat}
    (he : e.rks = keySchedule k true d) {m : Nat} (hm : m ≤ 8) : e.slot (11 + m) = inverseKey k m := by
  unfold Engine.slot
  rw [he]
  interval_cases m <;> rfl

/-- AES_KEYINIT makes the schedule valid (R119). -/
theorem loadKey_scheduleValid (dec : Bool) (s : State) : (loadKey dec s).eng.ScheduleValid := by
  have hfwd {r : Nat} (hr : r ≤ 10) : (loadKey dec s).eng.slot r = roundKey s.eng.latch.key r :=
    Engine.slot_keySchedule_forward rfl hr
  refine ⟨fun _ => rfl, fun _ r hr => ?_, fun hinv m hm => ?_⟩
  · rw [hfwd hr, hfwd (Nat.zero_le _), roundKey]
  · obtain rfl : dec = true := hinv
    rw [hfwd (r := 9 - m) (by omega)]
    exact Engine.slot_keySchedule_inverse (e := (loadKey true s).eng) (d := s.draws) rfl hm

/-- The effect of a command leaves the schedule valid: only AES_KEYINIT writes it. -/
theorem Effect.scheduleValid {i : Instr} {s t : State} (h : Effect i s t) (hs : s.eng.ScheduleValid) :
    t.eng.ScheduleValid := by
  cases h with
  | dout | mem => exact hs.congr rfl rfl rfl
  | loadKey => exact loadKey_scheduleValid _ _
  | strInit => rw [strInitEffect_eq]; exact hs.congr rfl rfl rfl
  | strXform => rw [xformEffect_eq]; exact hs.congr rfl rfl rfl
  | strLoad _ h => rw [(strLoadEffect_eq_ok h).2]; exact hs.congr rfl rfl rfl

theorem InstanceMove.scheduleValid {s : State} {e f : Engine} (h : InstanceMove s e f) (he : e.ScheduleValid) :
    f.ScheduleValid := by
  cases h with
  | same => exact he
  | write h =>
    obtain ⟨-, hrks, -, hkey, hinv, -⟩ := hostWrite_frame h
    exact he.congr hrks hkey hinv
  | illegal => exact he.congr rfl rfl rfl
  | complete _ _ h =>
    rcases exec_effect_cases h with ⟨c, -, rfl⟩ | ⟨u, -, hu, rfl⟩
    · exact he.congr rfl rfl rfl
    · exact (hu.scheduleValid he).congr rfl rfl rfl
  | reset u => exact Engine.scheduleValid_of_invalid rfl rfl

/-- Settles O54: AES_KEYINIT alone writes the schedule, and writes a valid one; a reset clears its flags. -/
theorem keyScheduleStaysValid : Obligations.KeyScheduleStaysValid :=
  fun _ _ hs h => every_of_instanceMove (fun _ _ hmove => hmove.scheduleValid) hs h

/-! ## P stays a permutation (R45) -/

/-- Every value 0 to 255 occurs exactly once in the table (R45). -/
def IsPermTable (p : Vector Byte 256) : Prop := ∀ v : Byte, p.toList.count v = 1

/-- `permSwap` is the exchange of two entries. -/
theorem permSwap_eq_swap (p : Vector Byte 256) (i j : Byte) :
    permSwap p i j = p.swap i.toNat j.toNat i.isLt j.isLt := by
  rfl

/-- Swapping two entries keeps the table a permutation (R171, R172). -/
theorem IsPermTable.permSwap {p : Vector Byte 256} (h : IsPermTable p) (i j : Byte) :
    IsPermTable (Machine.permSwap p i j) := by
  intro v
  rw [permSwap_eq_swap, ← h v]
  exact (Vector.swap_perm _ _).toList.count_eq v

/-- The identity table is a permutation. -/
theorem identityPerm_isPermTable : IsPermTable identityPerm := by
  intro v
  have hnodup : identityPerm.toList.Nodup := List.nodup_range.map_on fun x hx y hy hxy => by
    rw [List.mem_range] at hx hy
    simpa [Nat.mod_eq_of_lt, hx, hy] using congrArg BitVec.toNat hxy
  have hmem : v ∈ identityPerm.toList :=
    List.mem_map.2 ⟨v.toNat, List.mem_range.2 v.isLt, by simp⟩
  exact List.count_eq_one_of_mem hnodup hmem

/-- The loop of the KSA only swaps entries (R171). -/
theorem ksaLoop_isPermTable (key : List Byte) (n i : Nat) (j : Byte) {p : Vector Byte 256} (h : IsPermTable p) :
    IsPermTable (ksaLoop key n i j p) := by
  induction n generalizing i j p with
  | zero => exact h
  | succ n ih => exact ih _ _ (h.permSwap _ _)

/-- Keying makes the table a permutation (R171). -/
theorem ksa_isPermTable (key : List Byte) : IsPermTable (ksa key).p := by
  simp only [ksa]
  exact ksaLoop_isPermTable _ _ _ _ identityPerm_isPermTable

/-- NextKey only swaps entries (R172). -/
theorem advanceN_isPermTable (n : Nat) {g : Generator} (h : IsPermTable g.p) : IsPermTable (advanceN n g).p := by
  induction n generalizing g with
  | zero => exact h
  | succ n ih => exact ih (h.permSwap _ _)

/-- The table loaded from an image is its first 256 bytes (R176). -/
theorem toList_permOfBytes {l : List Byte} (hl : 256 ≤ l.length) : (permOfBytes l).toList = l.take 256 := by
  refine List.ext_getElem (by simp [hl]) fun k hk hk' => ?_
  have hk : k < l.length := by rw [List.length_take] at hk'; omega
  simp [permOfBytes, hk]

/-- The image check of STR_LOAD (R176). -/
theorem isPermutation_iff (l : List Byte) : isPermutation l = true ↔ ∀ v : Byte, l.count v = 1 := by
  simp only [isPermutation, List.all_eq_true, List.mem_range, beq_iff_eq]
  constructor
  · intro h v
    simpa using h v.toNat v.isLt
  · exact fun h v _ => h _

/-- Validity of P depends on STREAM_VALID and P only. -/
theorem Engine.PermutationValid.congr {e f : Engine} (h : e.PermutationValid)
    (hstream : f.streamValid = e.streamValid) (hgen : f.gen = e.gen) : f.PermutationValid := by
  unfold Engine.PermutationValid
  rw [hstream, hgen]
  exact h

/-- The effect of a command leaves P valid: keying and loading make it a permutation, transforming only swaps entries. -/
theorem Effect.permutationValid {i : Instr} {s t : State} (h : Effect i s t) (hs : s.eng.PermutationValid) :
    t.eng.PermutationValid := by
  cases h with
  | dout | mem | loadKey => exact hs.congr rfl rfl
  | strInit =>
    rw [strInitEffect_eq]
    exact fun _ => ksa_isPermTable _
  | strXform =>
    rw [xformEffect_eq]
    exact fun hstream => advanceN_isPermTable _ (hs hstream)
  | strLoad _ h =>
    obtain ⟨hperm, ht⟩ := strLoadEffect_eq_ok h
    intro _ v
    have hp : t.eng.gen.p = permOfBytes (readBytes s.mem s.eng.latch.addr.toNat 258) := by
      simp only [ht, generatorOfImage]
    rw [hp, toList_permOfBytes (by rw [length_readBytes]; omega)]
    exact (isPermutation_iff _).1 hperm v

theorem InstanceMove.permutationValid {s : State} {e f : Engine} (h : InstanceMove s e f) (he : e.PermutationValid) :
    f.PermutationValid := by
  cases h with
  | same => exact he
  | write h =>
    obtain ⟨-, -, hgen, -, -, hstream, -⟩ := hostWrite_frame h
    exact he.congr hstream hgen
  | illegal => exact he.congr rfl rfl
  | complete _ _ h =>
    rcases exec_effect_cases h with ⟨c, -, rfl⟩ | ⟨u, -, hu, rfl⟩
    · exact he.congr rfl rfl
    · exact (hu.permutationValid he).congr rfl rfl
  | reset u => exact fun hstream => nomatch hstream

/-- The one instance of `State.reset` has what its reset value has. -/
theorem every_reset {P : Engine → Prop} (h : P State.reset.eng) : State.reset.Every P := by
  intro e he
  obtain rfl : e = State.reset.eng := List.mem_singleton.1 he
  exact h

/-- After reset STREAM_VALID is 0. -/
theorem reset_permutationValid : State.reset.eng.PermutationValid := fun hstream => nomatch hstream

/-- Settles O55: from STREAM_VALID = 0 at reset on, P is only ever keyed, loaded from a checked image, or swapped. -/
theorem permutationStaysValid : Obligations.PermutationStaysValid :=
  ⟨every_reset reset_permutationValid,
    fun _ _ hs h => every_of_instanceMove (fun _ _ hmove => hmove.permutationValid) hs h⟩

end Sys2Proof.Machine
end

section
/-! The frame of a command, and when the valid flags change (R29 to R31, R39, R42, R44, R66): both read off `Effect`. -/

namespace Sys2Proof.Machine

/-! ## What the effect of a command leaves unchanged -/

section
variable {i : Instr} {s t : State} (h : Effect i s t)
include h

/-- Only nine commands write DOUT (R39). -/
theorem Effect.dout_eq
    (hop : i.opcode ∉ [0x11#8, 0x12#8, 0x19#8, 0x20#8, 0x21#8, 0x22#8, 0x23#8, 0x24#8, 0x25#8]) :
    t.eng.dout = s.eng.dout := by
  cases h with
  | dout _ hdout => exact absurd hdout hop
  | mem | loadKey => rfl
  | strInit => rw [strInitEffect_eq]
  | strXform => rw [xformEffect_eq]
  | strLoad _ h => rw [(strLoadEffect_eq_ok h).2]

/-- Only AES_KEYINIT writes the key schedule with its flags, and draws free values (R42, R119). -/
theorem Effect.schedule_eq (hop : i.opcode ≠ 0x10#8) :
    t.eng.rks = s.eng.rks ∧ t.eng.keyValid = s.eng.keyValid ∧ t.eng.invValid = s.eng.invValid ∧
      t.draws = s.draws := by
  cases h with
  | dout | mem => exact ⟨rfl, rfl, rfl, rfl⟩
  | loadKey hi => exact absurd (hi ▸ rfl) hop
  | strInit => rw [strInitEffect_eq]; exact ⟨rfl, rfl, rfl, rfl⟩
  | strXform => rw [xformEffect_eq]; exact ⟨rfl, rfl, rfl, rfl⟩
  | strLoad _ h => rw [(strLoadEffect_eq_ok h).2]; exact ⟨rfl, rfl, rfl, rfl⟩

/-- Only STR_INIT, STR_XFORM and STR_LOAD write the generator (R44). -/
theorem Effect.gen_eq (hop : i.opcode ∉ [0x30#8, 0x31#8, 0x33#8]) : t.eng.gen = s.eng.gen := by
  cases h with
  | dout | mem | loadKey => rfl
  | strInit hi => simp [hi, Instr.opcode] at hop
  | strXform hi => simp [hi, Instr.opcode] at hop
  | strLoad hi => simp [hi, Instr.opcode] at hop

/-- Only STR_INIT and STR_LOAD write STREAM_VALID (R31). -/
theorem Effect.streamValid_eq (hop : i.opcode ∉ [0x30#8, 0x33#8]) : t.eng.streamValid = s.eng.streamValid := by
  cases h with
  | dout | mem | loadKey => rfl
  | strInit hi => simp [hi, Instr.opcode] at hop
  | strXform => rw [xformEffect_eq]
  | strLoad hi => simp [hi, Instr.opcode] at hop

/-- Memory outside the written footprint reads as before (R66). -/
theorem Effect.readByte_eq (hm : Memory.wf s.mem) {a : Nat}
    (ha : ∀ r ∈ writtenFootprint i s.eng.latch, r.contains a = false) : readByte t.mem a = readByte s.mem a := by
  cases h with
  | dout | loadKey => rfl
  | mem _ hread => exact hread hm a ha
  | strInit => rw [strInitEffect_eq]
  | strXform hi =>
    subst hi
    rw [xformEffect_eq]
    exact readByte_xformLoop_other hm _ _ _
      ((Region.contains_eq_false_iff _ _).1 (ha s.eng.latch.buffer (List.mem_singleton.2 rfl)))
  | strLoad _ h => rw [(strLoadEffect_eq_ok h).2]

end

/-- What completing a command can change at most, beside the flags of STATUS (R202, R226). -/
theorem exec_frame {i : Instr} {s t : State} (h : exec i s = .next t) :
    t = { s with
      eng := { s.eng with busy := t.eng.busy, done := t.eng.done, err := t.eng.err, errcode := t.eng.errcode,
                          keyValid := t.eng.keyValid, invValid := t.eng.invValid, streamValid := t.eng.streamValid,
                          dout := t.eng.dout, rks := t.eng.rks, gen := t.eng.gen }
      mem := t.mem, draws := t.draws } := by
  rcases exec_effect_cases h with ⟨c, -, rfl⟩ | ⟨u, hu, -, rfl⟩
  · rfl
  · rw [effectOf_frame hu]
    rfl

/-- Settles O24: an error completion writes STATUS only, any other what `Effect` allows its command. -/
theorem commandFrame : Obligations.CommandFrame := by
  unfold Obligations.CommandFrame
  intro i s t hm h
  refine ⟨exec_frame h, ?_⟩
  rcases exec_effect_cases h with ⟨c, -, rfl⟩ | ⟨u, -, hu, rfl⟩
  · exact ⟨fun _ => rfl, fun _ => ⟨rfl, rfl, rfl, rfl⟩, fun _ => rfl, fun _ => rfl, fun _ _ => rfl⟩
  · exact ⟨hu.dout_eq, hu.schedule_eq, hu.gen_eq, hu.streamValid_eq, fun _ => hu.readByte_eq hm⟩

/-! ## When the valid flags change -/

/-- `f` can follow `e` at an instance in a step that is no reset, as far as the valid flags go (R29, R30, R31, R259). -/
def ValidFlagsRule (e f : Engine) : Prop :=
  (e.keyValid = true → f.keyValid = true) ∧ (e.streamValid = true → f.streamValid = true) ∧
  (e.keyValid = false ∧ f.keyValid = true →
    e.busy = true ∧ f.busy = false ∧ ∃ dec, e.latch.command = .ok (.aesKeyinit dec)) ∧
  (e.invValid = false ∧ f.invValid = true →
    e.busy = true ∧ f.busy = false ∧ e.latch.command = .ok (.aesKeyinit true)) ∧
  (e.invValid = true ∧ f.invValid = false →
    e.busy = true ∧ f.busy = false ∧ e.latch.command = .ok (.aesKeyinit false)) ∧
  (e.streamValid = false ∧ f.streamValid = true →
    e.busy = true ∧ f.busy = false ∧ (e.latch.command = .ok .strInit ∨ e.latch.command = .ok .strLoad))

/-- Valid flags that stay as they are keep to the rule. -/
theorem validFlagsRule_of_eq {e f : Engine} (hkey : f.keyValid = e.keyValid) (hinv : f.invValid = e.invValid)
    (hstream : f.streamValid = e.streamValid) : ValidFlagsRule e f := by
  unfold ValidFlagsRule
  rw [hkey, hinv, hstream]
  refine ⟨id, id, ?_, ?_, ?_, ?_⟩ <;> exact fun ⟨h, h'⟩ => absurd (h.symm.trans h') (by decide)

/-- A completed AES_KEYINIT sets KEY_VALID, and INV_VALID to DEC (R119). -/
theorem validFlagsRule_of_keyinit {e f : Engine} {dec : Bool} (hb : e.busy = true) (hb' : f.busy = false)
    (hi : e.latch.command = .ok (.aesKeyinit dec)) (hkey : f.keyValid = true) (hinv : f.invValid = dec)
    (hstream : f.streamValid = e.streamValid) : ValidFlagsRule e f := by
  subst hinv
  refine ⟨fun _ => hkey, fun h => hstream.trans h, fun _ => ⟨hb, hb', _, hi⟩, fun h => ⟨hb, hb', h.2 ▸ hi⟩,
    fun h => ⟨hb, hb', h.2 ▸ hi⟩, fun ⟨h, h'⟩ => ?_⟩
  exact absurd (h.symm.trans (hstream.symm.trans h')) (by decide)

/-- A completed STR_INIT or STR_LOAD sets STREAM_VALID (R173, R176). -/
theorem validFlagsRule_of_stream {e f : Engine} (hb : e.busy = true) (hb' : f.busy = false)
    (hi : e.latch.command = .ok .strInit ∨ e.latch.command = .ok .strLoad) (hkey : f.keyValid = e.keyValid)
    (hinv : f.invValid = e.invValid) (hstream : f.streamValid = true) : ValidFlagsRule e f := by
  obtain ⟨hkey, -, hkey', hinv, hinv', -⟩ :=
    validFlagsRule_of_eq (f := { f with streamValid := e.streamValid }) hkey hinv rfl
  exact ⟨hkey, fun _ => hstream, hkey', hinv, hinv', fun _ => ⟨hb, hb', hi⟩⟩

/-- Completing a command keeps to the rule. -/
theorem exec_validFlagsRule {i : Instr} {s t : State} (hb : s.eng.busy = true) (hi : s.eng.latch.command = .ok i)
    (h : exec i s = .next t) : ValidFlagsRule s.eng t.eng := by
  rcases exec_effect_cases h with ⟨c, -, rfl⟩ | ⟨u, -, hu, rfl⟩
  · exact validFlagsRule_of_eq rfl rfl rfl
  · cases hu with
    | dout | mem => exact validFlagsRule_of_eq rfl rfl rfl
    | loadKey hkeyinit => exact validFlagsRule_of_keyinit hb rfl (hkeyinit ▸ hi) rfl rfl rfl
    | strInit hinit =>
      rw [strInitEffect_eq]
      exact validFlagsRule_of_stream hb rfl (.inl (hinit ▸ hi)) rfl rfl rfl
    | strXform =>
      rw [xformEffect_eq]
      exact validFlagsRule_of_eq rfl rfl rfl
    | strLoad hload h =>
      rw [(strLoadEffect_eq_ok h).2]
      exact validFlagsRule_of_stream hb rfl (.inr (hload ▸ hi)) rfl rfl rfl

/-- Every move of an instance but its reset keeps to the rule. -/
theorem InstanceMove.validFlagsRule {s : State} {e f : Engine} (h : InstanceMove s e f)
    (hreset : ∀ n, s.events.head? ≠ some (.reset n)) : ValidFlagsRule e f := by
  cases h with
  | same | illegal => exact validFlagsRule_of_eq rfl rfl rfl
  | write h =>
    obtain ⟨-, -, -, hkey, hinv, hstream, -⟩ := hostWrite_frame h
    exact validFlagsRule_of_eq hkey hinv hstream
  | complete hb hi h => exact exec_validFlagsRule hb hi h
  | reset _ he => exact absurd he (hreset _)

/-- Settles O59: the rule holds of every move of an instance that is no reset. -/
theorem validFlagsSetAndClearedAsSpecified : Obligations.ValidFlagsSetAndClearedAsSpecified := by
  unfold Obligations.ValidFlagsSetAndClearedAsSpecified
  intro s t k e f hreset hstep he hf
  refine ((step_move hstep).instanceMove he hf).validFlagsRule fun n hn => ?_
  obtain ⟨rest, hevents⟩ := List.head?_eq_some_iff.1 hn
  exact hreset n rest hevents

end Sys2Proof.Machine
end

section
/-! The register block (10_state.md section 1): what a write stores and what a read shows, and the values right after
reset (R52). -/

namespace Sys2Proof.Machine

/-! ## Operand registers (R33 to R38, R40) -/

/-- A masked address is the value modulo 2^AW (R33). -/
theorem toNat_maskAddress (aw : Nat) (v : Word) : (maskAddress aw v).toNat = v.toNat % 2 ^ aw := by
  rw [maskAddress, BitVec.toNat_ofNat]
  exact Nat.mod_eq_of_lt (Nat.lt_of_le_of_lt (Nat.mod_le _ _) v.isLt)

@[simp] theorem Quad.get_set_self (q : Quad) (n : Fin 4) (v : Word) : (q.set n v).get n = v := by
  fin_cases n <;> rfl

theorem Quad.get_set_ne (q : Quad) {m n : Fin 4} (h : m ≠ n) (v : Word) : (q.set n v).get m = q.get m := by
  fin_cases n <;> fin_cases m <;> simp [Quad.get, Quad.set] at h ⊢

@[simp] theorem Quad.get_zero (n : Fin 4) : Quad.zero.get n = 0#32 := by
  fin_cases n <;> rfl

/-- The registers that only hold an operand (R33 to R38, R40). -/
inductive IsOperand : Reg → Prop
  | addr : IsOperand .addr
  | len : IsOperand .len
  | kaddr : IsOperand .kaddr
  | klen : IsOperand .klen
  | key (n : Fin 4) : IsOperand (.key n)
  | din (n : Fin 4) : IsOperand (.din n)
  | rkin (n : Fin 4) : IsOperand (.rkin n)

/-- An operand register reads what is written to it, an address modulo 2^AW. -/
theorem toNat_registerValue_storeRegister {r : Reg} (hr : IsOperand r) (aw : Nat) (e : Engine) (v : Word) :
    (registerValue (storeRegister aw e r v) r).toNat =
      if r = .addr ∨ r = .kaddr then v.toNat % 2 ^ aw else v.toNat := by
  cases hr with
  | addr | kaddr => simp [registerValue, storeRegister, toNat_maskAddress]
  | _ => simp [registerValue, storeRegister]

/-- Every other register reads as before a write to an operand register. -/
theorem registerValue_storeRegister_of_ne {r q : Reg} (hr : IsOperand r) (hq : q ≠ r) (aw : Nat) (e : Engine)
    (v : Word) : registerValue (storeRegister aw e r v) q = registerValue e q := by
  cases hr with
  | addr => cases q with
    | addr => exact absurd rfl hq
    | _ => rfl
  | len => cases q with
    | len => exact absurd rfl hq
    | _ => rfl
  | kaddr => cases q with
    | kaddr => exact absurd rfl hq
    | _ => rfl
  | klen => cases q with
    | klen => exact absurd rfl hq
    | _ => rfl
  | key n => cases q with
    | key m => exact Quad.get_set_ne _ (fun h => hq (congrArg _ h)) v
    | _ => rfl
  | din n => cases q with
    | din m => exact Quad.get_set_ne _ (fun h => hq (congrArg _ h)) v
    | _ => rfl
  | rkin n => cases q with
    | rkin m => exact Quad.get_set_ne _ (fun h => hq (congrArg _ h)) v
    | _ => rfl

/-- A write to an operand register changes operand registers only. -/
theorem storeRegister_frame {r : Reg} (hr : IsOperand r) (aw : Nat) (e : Engine) (v : Word) :
    storeRegister aw e r v = { e with
      addr := (storeRegister aw e r v).addr, len := (storeRegister aw e r v).len
      kaddr := (storeRegister aw e r v).kaddr, klen := (storeRegister aw e r v).klen
      key := (storeRegister aw e r v).key, din := (storeRegister aw e r v).din
      rkin := (storeRegister aw e r v).rkin } := by
  cases hr <;> rfl

/-- Settles O16: the write is `storeRegister` at an operand register. -/
theorem operandRegistersStoreOnly : Obligations.OperandRegistersStoreOnly := by
  unfold Obligations.OperandRegistersStoreOnly
  intro s r v hr
  have hop : IsOperand r := by
    rcases hr with rfl | rfl | rfl | rfl | ⟨n, rfl | rfl | rfl⟩ <;> constructor
  have hcmd : r ≠ .cmd := by rintro rfl; cases hop
  exact ⟨_, hostWrite_of_ne_cmd hcmd v s, toNat_registerValue_storeRegister hop _ _ _,
    fun q hq => registerValue_storeRegister_of_ne hop hq _ _ _,
    congrArg (fun e => { s with eng := e }) (storeRegister_frame hop _ _ _)⟩

/-! ## STATUS (R23, R221) -/

@[simp] theorem getLsbD_bit (b : Bool) (k : Nat) : (bit b).getLsbD k = (decide (k = 0) && b) := by
  cases b <;> simp [bit, BitVec.getLsbD_one]

/-- The three fields of STATUS that are wider than a bit: bits 7:4 and 31:19 read 0, ERRCODE stands in bits 15:8 (R23). -/
theorem extractLsb'_statusWord (e : Engine) :
    e.statusWord.extractLsb' 4 4 = 0#4 ∧ e.statusWord.extractLsb' 8 8 = e.errcode.toByte ∧
      e.statusWord.extractLsb' 19 13 = 0#13 := by
  refine ⟨?_, ?_, ?_⟩ <;>
    simp (disch := omega) only [Engine.statusWord, BitVec.extractLsb'_append_eq_of_le,
      BitVec.extractLsb'_append_eq_of_add_le] <;>
    exact BitVec.extractLsb'_eq_self

/-- The seven flags of STATUS at their bits (R23). -/
theorem getLsbD_statusWord (e : Engine) :
    e.statusWord.getLsbD 0 = e.busy ∧ e.statusWord.getLsbD 1 = e.done ∧ e.statusWord.getLsbD 2 = e.err ∧
      e.statusWord.getLsbD 3 = e.ovr ∧ e.statusWord.getLsbD 16 = e.keyValid ∧
      e.statusWord.getLsbD 17 = e.invValid ∧ e.statusWord.getLsbD 18 = e.streamValid := by
  simp only [Engine.statusWord, BitVec.getLsbD_append, getLsbD_bit]
  simp

/-- Clearing a flag by a one (R23). -/
theorem and_not_eq_ite (b x : Bool) : (b && !x) = if x then false else b := by
  cases x <;> simp

/-- Settles O13: a read field by field of `statusWord`, a write as `Engine.writeStatus` clears by ones. -/
theorem statusRegisterReadAndWrite : Obligations.StatusRegisterReadAndWrite := by
  unfold Obligations.StatusRegisterReadAndWrite
  refine ⟨fun e => ?_, fun s v => ?_, rfl, rfl, rfl, rfl, rfl, rfl, rfl, rfl, rfl, rfl, rfl, rfl⟩
  · obtain ⟨hlow, hcode, hhigh⟩ := extractLsb'_statusWord e
    obtain ⟨hbusy, hdone, herr, hovr, hkey, hinv, hstream⟩ := getLsbD_statusWord e
    exact ⟨hbusy, hdone, herr, hovr, hlow, hcode, hkey, hinv, hstream, hhigh⟩
  · rw [hostWrite_of_ne_cmd (by decide)]
    simp only [storeRegister, Engine.writeStatus, and_not_eq_ite]

/-! ## CTRL and the offsets that ignore writes (R21, R22, R32, R39, R41) -/

/-- Settles O14: a write is `hostWrite_of_ne_cmd`, a read bit 0 of `ctrlWord`. -/
theorem controlRegisterReadAndWrite : Obligations.ControlRegisterReadAndWrite := by
  unfold Obligations.ControlRegisterReadAndWrite
  refine ⟨fun e k => ?_, fun s v => hostWrite_of_ne_cmd (by decide) v s, rfl, fun e => rfl⟩
  simp only [registerValue, Engine.ctrlWord, BitVec.getLsbD_append, getLsbD_bit]
  by_cases hk : k = 0 <;> simp [hk]

/-- Settles O15: `storeRegister` drops these writes; of the bits of `capsWord` only the lowest three can be 1. -/
theorem readOnlyOffsetsIgnoreWrites : Obligations.ReadOnlyOffsetsIgnoreWrites := by
  unfold Obligations.ReadOnlyOffsetsIgnoreWrites
  refine ⟨fun e k => ?_, fun e n => ⟨rfl, rfl⟩, ?_⟩
  · simp only [registerValue, Engine.capsWord, BitVec.getLsbD_append, getLsbD_bit]
    rcases k with _ | _ | _ | k <;> simp
  · rintro s v r (rfl | ⟨k, rfl⟩ | ⟨n, rfl⟩) <;> exact hostWrite_of_ne_cmd (by simp) v s

/-! ## Right after reset (R9, R52) -/

/-- CAPS reads 7 after reset, every other register 0. -/
theorem registerValue_reset (r : Reg) :
    registerValue State.reset.eng r = if r = .caps then 0x00000007#32 else 0#32 := by
  cases r with
  | key n | din n | dout n | rkin n => exact Quad.get_zero n
  | _ => rfl

/-- The default parameters are legal (R9). -/
theorem reset_parametersLegal : State.reset.ParametersLegal :=
  ⟨by decide, every_reset (P := fun e => e.base % 256 = 0) rfl, List.pairwise_singleton _ _⟩

/-- Settles O27: every register by `registerValue_reset`, the parameters by their defaults. -/
theorem resetStateHoldsSpecValues : Obligations.ResetStateHoldsSpecValues :=
  ⟨registerValue_reset, rfl, rfl, rfl, rfl, rfl, reset_parametersLegal⟩

/-- Settles O57: every flag is 0 at reset, memory lists no cell, and there is one instance. -/
theorem invariantsHoldAtReset : Obligations.InvariantsHoldAtReset :=
  ⟨⟨Memory.wf_nil, fun _ hc => nomatch hc⟩, every_reset (Engine.flagsConsistent_of_cleared rfl rfl rfl),
    every_reset (Engine.scheduleValid_of_invalid rfl rfl), every_reset reset_permutationValid,
    List.pairwise_singleton _ _, reset_parametersLegal⟩

end Sys2Proof.Machine
end

section
/-! Host accesses that stop the machine: register accesses of the wrong form (20_memory.md R65), and memory accesses to a
footprint in flight (R74). -/

namespace Sys2Proof.Machine

/-! ## Register accesses of the wrong form (R65) -/

/-- Every instance can be brought into focus. -/
theorem State.exists_focus_of_lt {s : State} {k : Nat} (hk : k < s.engines.length) : ∃ t, s.focus k = some t := by
  unfold State.focus
  rw [List.drop_eq_getElem_cons hk]
  exact ⟨_, rfl⟩

theorem Engine.ownsAddress_iff (e : Engine) (a : Nat) : e.ownsAddress a = true ↔ e.base ≤ a ∧ a < e.base + 256 := by
  simp [Engine.ownsAddress]

/-- An address in a register block brings an instance into focus whose block holds it (R86). -/
theorem State.exists_focusAddress {s : State} {a : Nat} (h : ∃ e ∈ s.engines, e.ownsAddress a = true) :
    ∃ t, s.focusAddress a = some t ∧ t.eng ∈ s.engines ∧ t.eng.ownsAddress a = true := by
  obtain ⟨k, hk⟩ := Option.isSome_iff_exists.1 (List.findIdx?_isSome.trans (List.any_eq_true.2 h))
  obtain ⟨hlt, howns, -⟩ := List.findIdx?_eq_some_iff_getElem.1 hk
  obtain ⟨t, ht⟩ := State.exists_focus_of_lt hlt
  obtain ⟨-, -, hget, -⟩ := State.focus_eq_some ht
  obtain ⟨_, heng⟩ := List.getElem?_eq_some_iff.1 hget
  exact ⟨t, by rw [State.focusAddress, hk]; exact ht, heng ▸ List.getElem_mem hlt, heng ▸ howns⟩

/-- In an aligned block, the accesses that reach a register are those 32 bits wide at an aligned address (R9, R65). -/
theorem accessForm_iff {e : Engine} {a : Nat} (hbase : e.base % 256 = 0) (ha : e.base ≤ a) (width : Nat) :
    accessForm e a width = true ↔ width = 32 ∧ a % 4 = 0 := by
  simp only [accessForm, Bool.and_eq_true, decide_eq_true_eq]
  omega

theorem busWrite_of_accessForm_false {s t : State} {a width : Nat} (ht : s.focusAddress a = some t)
    (hform : accessForm t.eng a width = false) (v : Word) : busWrite a width v s = .refused .registerAccessForm := by
  simp [busWrite, ht, hform]

theorem busRead_of_accessForm_false {s t : State} {a width : Nat} (ht : s.focusAddress a = some t)
    (hform : accessForm t.eng a width = false) : busRead a width s = .refused .registerAccessForm := by
  simp [busRead, ht, hform]

/-- A step runs the first event on the state with that event taken. -/
theorem step_of_events {s : State} {e : Event} {rest : List Event} (he : s.events = e :: rest) :
    step s = runEvent exec e { s with events := rest } := by
  simp only [step, agentStep, he]

/-- Settles O19: the instance in focus owns the address, and its `accessForm` fails. -/
theorem narrowOrMisalignedAccessRefused : Obligations.NarrowOrMisalignedAccessRefused := by
  unfold Obligations.NarrowOrMisalignedAccessRefused
  rintro s a width v rest ⟨-, haligned, -⟩ ⟨e, he, hin⟩ hwrong
  obtain ⟨t, ht, heng, howns⟩ := State.exists_focusAddress (s := { s with events := rest })
    ⟨e, he, (e.ownsAddress_iff a).2 hin⟩
  have hform : accessForm t.eng a width = false := by
    rw [← Bool.not_eq_true, accessForm_iff (haligned _ heng) ((t.eng.ownsAddress_iff a).1 howns).1]
    omega
  exact ⟨fun hevents => (step_of_events hevents).trans (busWrite_of_accessForm_false ht hform v),
    fun hevents => (step_of_events hevents).trans (busRead_of_accessForm_false ht hform)⟩

/-! ## Host accesses to a footprint in flight (R74) -/

theorem State.mem_footprintsInFlight (s : State) (r : Region) :
    r ∈ s.footprintsInFlight ↔ ∃ e ∈ s.engines, e.busy = true ∧ r ∈ e.latch.footprint := by
  simp [State.footprintsInFlight, Engine.footprintInFlight]

/-- A host memory access inside memory that includes a byte of a footprint in flight is a fault. -/
theorem memoryAccess_footprintAccess {s : State} {r t : Region} {b : Nat} (hr : r.base + r.size ≤ 2 ^ s.aw)
    (hb : r.contains b = true) (ht : t ∈ s.footprintsInFlight) (htb : t.contains b = true) (next : State) :
    memoryAccess s r next = .fault .footprintAccess := by
  have hmeet : regionsMeet [r] s.footprintsInFlight = true :=
    (regionsMeet_iff _ _).2 ⟨b, ⟨r, List.mem_singleton.2 rfl, hb⟩, t, ht, htb⟩
  simp [memoryAccess, Nat.not_lt.2 hr, hmeet]

/-- Settles O21: a write and a read are both a `memoryAccess` to the region `[a, a + n)`. -/
theorem hostAccessToFootprintFaults : Obligations.HostAccessToFootprintFaults := by
  unfold Obligations.HostAccessToFootprintFaults
  rintro s a n b bytes rest e r hn hab hbn he hbusy hr hrb rfl
  have hfault (next : State) :
      memoryAccess { s with events := rest } ⟨a, bytes.length⟩ next = .fault .footprintAccess :=
    memoryAccess_footprintAccess hn ((Region.contains_iff _ _).2 ⟨hab, hbn⟩)
      ((State.mem_footprintsInFlight _ r).2 ⟨e, he, hbusy, hr⟩) hrb next
  exact ⟨fun hevents => (step_of_events hevents).trans (hfault _),
    fun hevents => (step_of_events hevents).trans (hfault _)⟩

end Sys2Proof.Machine
end

section
/-! The checks of the meanings against `Check(L)` as 60_exceptions.md R222 writes it: both report the same code. From that,
where a command stops whose accesses the platform refuses (20_memory.md R71). -/

namespace Sys2Proof.Machine

/-! ## The inversion of the decoder (R87 to R91) -/

/-- A command that takes no argument has ARG = 0x00 (R88). -/
theorem noArg_eq_ok {arg : Byte} {i j : Instr} (h : noArg arg i = .ok j) : i = j ∧ arg = 0x00#8 := by
  unfold noArg at h
  split at h <;> cases h
  exact ⟨rfl, ‹_›⟩

/-- With ARG[7:1] = 0, DEC is all of ARG (R88). -/
theorem eq_argByte_of_keyinit {arg : Byte} (h : arg.extractLsb' 1 7 = 0#7) :
    arg = (Instr.aesKeyinit (arg.getLsbD 0)).argByte := by
  revert arg; decide

/-- The fields that decode to a command are its own, and it has an encoding. -/
theorem decodeFields_eq_ok {op arg : Byte} {rsv : BitVec 16} {i : Instr} (h : decodeFields op arg rsv = .ok i) :
    op = i.opcode ∧ arg = i.argByte ∧ rsv = 0#16 ∧ i.wellFormed = true := by
  unfold decodeFields at h
  rcases ite_eq_iff.1 h with ⟨-, h⟩ | ⟨hrsv, h⟩
  · cases h
  rw [not_not] at hrsv
  rcases ite_eq_iff.1 h with ⟨hop, h⟩ | ⟨-, h⟩
  · rcases ite_eq_iff.1 h with ⟨-, h⟩ | ⟨harg, h⟩ <;> cases h
    exact ⟨hop, eq_argByte_of_keyinit (not_not.1 harg), hrsv, rfl⟩
  rcases ite_eq_iff.1 h with ⟨hop, h⟩ | ⟨-, h⟩
  · rcases ite_eq_iff.1 h with ⟨-, h⟩ | ⟨harg, h⟩ <;> cases h
    exact ⟨hop, rfl, hrsv, decide_eq_true (Nat.not_lt.1 harg)⟩
  rcases ite_eq_iff.1 h with ⟨hop, h⟩ | ⟨-, h⟩
  · cases h
    exact ⟨hop, rfl, hrsv, rfl⟩
  -- What is left are the commands without an argument.
  iterate 19
    rcases ite_eq_iff.1 h with ⟨hop, h⟩ | ⟨-, h⟩
    · obtain ⟨rfl, rfl⟩ := noArg_eq_ok h
      exact ⟨hop, rfl, hrsv, rfl⟩
  cases h

/-! ## The code reported (R222) -/

/-- The code of a list of checks, `d` when all pass: that of the first check, else that of the rest. -/
theorem getD_firstError_cons (c : Option ErrCode) (cs : List (Option ErrCode)) (d : ErrCode) :
    (firstError (c :: cs)).getD d = c.getD ((firstError cs).getD d) := by
  cases c <;> rfl

section Checks
variable (s : State) (d : ErrCode)

@[simp] theorem getD_requireBcu : (requireBcu s).getD d = if s.eng.hasAes = false then .unsupported else d := by
  unfold requireBcu; cases s.eng.hasAes <;> rfl

@[simp] theorem getD_requireKey : (requireKey s).getD d = if s.eng.keyValid = false then .noKey else d := by
  unfold requireKey; cases s.eng.keyValid <;> rfl

@[simp] theorem getD_requireInvKey : (requireInvKey s).getD d = if s.eng.invValid = false then .noInvKey else d := by
  unfold requireInvKey; cases s.eng.invValid <;> rfl

@[simp] theorem getD_requireStream : (requireStream s).getD d = if s.eng.streamValid = false then .noStream else d := by
  unfold requireStream; cases s.eng.streamValid <;> rfl

@[simp] theorem getD_requireSlotValid (slot : Byte) : (requireSlotValid slot s).getD d =
    if 11 ≤ slot.toNat ∧ s.eng.invValid = false then .noInvKey else d := by
  unfold requireSlotValid; split <;> simp [*]

@[simp] theorem getD_requireStreamKeyLen : (requireStreamKeyLen s).getD d =
    if s.eng.latch.klen.toNat = 0 ∨ 256 < s.eng.latch.klen.toNat then .badKeyLen else d := by
  unfold requireStreamKeyLen; split <;> rfl

@[simp] theorem getD_requireChainKeyLen : (requireChainKeyLen s).getD d =
    if s.eng.latch.klen.toNat = 0 then .badKeyLen else d := by
  unfold requireChainKeyLen; split <;> rfl

@[simp] theorem getD_requireWholeBlocks : (requireWholeBlocks s).getD d =
    if s.eng.latch.len.toNat % 16 = 0 then d else .badLength := by
  unfold requireWholeBlocks; split <;> rfl

@[simp] theorem getD_requireRange (r : Region) : (requireRange s r).getD d =
    if 2 ^ s.aw < r.base + r.size then .range else d := by
  unfold requireRange; split <;> simp [*]

@[simp] theorem getD_requireDisjoint : (requireDisjoint s).getD d =
    if 0 < s.eng.latch.len.toNat ∧ s.eng.latch.addr.toNat < s.eng.latch.kaddr.toNat + s.eng.latch.klen.toNat ∧
      s.eng.latch.kaddr.toNat < s.eng.latch.addr.toNat + s.eng.latch.len.toNat then .overlap else d := by
  simp only [requireDisjoint]; split <;> rfl

end Checks

/-- The code with which the pseudocode of a command ends. -/
def effectCode (i : Instr) (s : State) : ErrCode :=
  match effectOf i s s with
  | .error c => c
  | .ok _ => .none

/-- Only STR_LOAD of an image that holds no permutation ends with an error (R176, R231). -/
theorem effectCode_eq (i : Instr) (s : State) : effectCode i s =
    if i = .strLoad ∧ isPermutation ((readBytes s.mem s.eng.latch.addr.toNat 258).take 256) = false then .badState
    else .none := by
  cases i
  case strLoad =>
    cases h : isPermutation ((readBytes s.mem s.eng.latch.addr.toNat 258).take 256) <;>
      simp [effectCode, effectOf, strLoadEffect, h]
  all_goals simp only [effectCode, effectOf, reduceCtorEq, false_and, if_false]

/-- `Check(L)` reports the code of the first failing check of the latched command's meaning, and after its checks the
code of its pseudocode. -/
theorem checkLatch_eq {s : State} {i : Instr} (hi : s.eng.latch.command = .ok i) :
    checkLatch s = (firstError (checksOf i s)).getD (effectCode i s) := by
  obtain ⟨-, harg, -, hwf⟩ := decodeFields_eq_ok hi
  simp only [checkLatch, hi, effectCode_eq, checkDecoded, harg]
  cases i
  case' aesRkread slot =>
    simp only [checksOf, requireSlot, (show slotLegal slot = true from hwf), if_true, Instr.argByte]
  all_goals
    simp [checksOf, getD_firstError_cons, Instr.opcode, Instr.argByte, Instr.isBcu, Instr.readsForwardKeys,
      Instr.readsInverseKeys, Instr.readsStream, Instr.isChain, Instr.isBlockBuffer, footprint, writtenFootprint,
      readOnlyFootprint, ite_or]

/-! ## Engine accesses the platform refuses (R71) -/

/-- The image check is part of STR_LOAD's pseudocode, none of the checks before it (R176, R231). -/
theorem checksOf_ne_badState (i : Instr) (s : State) : some ErrCode.badState ∉ checksOf i s := by
  cases i <;> simp [checksOf, requireBcu, requireKey, requireInvKey, requireStream, requireStreamKeyLen,
    requireChainKeyLen, requireWholeBlocks, requireRange, requireDisjoint, requireSlot, requireSlotValid]

/-- Where `Check(L)` finds nothing, or only BAD_STATE, every check before the pseudocode passes. -/
theorem firstError_checksOf_eq_none {s : State} {i : Instr} (hi : s.eng.latch.command = .ok i)
    (h : checkLatch s = .none ∨ checkLatch s = .badState) : firstError (checksOf i s) = none := by
  rw [checkLatch_eq hi] at h
  cases hc : firstError (checksOf i s) with
  | none => rfl
  | some c =>
    rw [hc, Option.getD_some] at h
    rcases h with rfl | rfl
    · exact absurd (firstError_mem hc) (checksOf_ne_none i s)
    · exact absurd (firstError_mem hc) (checksOf_ne_badState i s)

/-- With every check passed, a refused access leaves the engine stuck. -/
theorem command_stuck {s : State} {checks : List (Option ErrCode)} {accessed : List Region}
    {effect : State → Except ErrCode State} (hc : firstError checks = none)
    (hr : regionsMeet accessed s.refusedMem = true) : command s checks accessed effect = .fault .engineStuck := by
  simp [command, hc, hr]

/-- Settles O25: by `checkLatch_eq` the checks pass, so the completion comes to the accesses through the port. -/
theorem refusedPortAccessSticks : Obligations.RefusedPortAccessSticks := by
  unfold Obligations.RefusedPortAccessSticks
  intro s rest i hevents hbusy hi hcheck hrefused
  rw [step_complete hevents hbusy hi, exec_eq_command]
  exact command_stuck (firstError_checksOf_eq_none (s := { s with events := rest }) hi hcheck) hrefused

end Sys2Proof.Machine
end

section
/-! The encoding of command words (30_encoding.md R87 to R91): the decoder and the encoder are inverse to each other, and a
row of the match and mask table fixes OP, RSV and the reserved bits of ARG. -/

namespace Sys2Proof

/-! ## The fields of a command word (R87) -/

/-- A word is its fields RSV, ARG and OP. -/
theorem append_fields (w : Word) : rsvField w ++ argField w ++ opField w = w := by
  simp only [rsvField, argField, opField]
  rw [BitVec.extractLsb'_append_extractLsb'_eq_extractLsb' (show 16 = 8 + 8 from rfl),
    BitVec.extractLsb'_append_extractLsb'_eq_extractLsb' (show 8 = 0 + 8 from rfl)]
  exact BitVec.extractLsb'_eq_self

section Fields
variable (rsv : BitVec 16) (arg op : Byte)

@[simp] theorem opField_append : opField (rsv ++ arg ++ op) = op := BitVec.extractLsb'_append_eq_right

@[simp] theorem argField_append : argField (rsv ++ arg ++ op) = arg := by
  rw [argField, BitVec.extractLsb'_append_eq_of_le (by decide)]
  exact BitVec.extractLsb'_append_eq_right

@[simp] theorem rsvField_append : rsvField (rsv ++ arg ++ op) = rsv := by
  rw [rsvField, BitVec.extractLsb'_append_eq_of_le (by decide)]
  exact BitVec.extractLsb'_append_eq_left

end Fields

/-- Two words are equal exactly when their fields are. -/
theorem append_fields_inj {rsv rsv' : BitVec 16} {arg arg' op op' : Byte} :
    rsv ++ arg ++ op = rsv' ++ arg' ++ op' ↔ rsv = rsv' ∧ arg = arg' ∧ op = op' := by
  refine ⟨fun h => ⟨?_, ?_, ?_⟩, by rintro ⟨rfl, rfl, rfl⟩; rfl⟩
  · simpa using congrArg rsvField h
  · simpa using congrArg argField h
  · simpa using congrArg opField h

/-! ## Decode and encode (R88, R91) -/

/-- The fields of a well-formed command decode to it. -/
theorem decodeFields_opcode_argByte {i : Instr} (hwf : i.wellFormed = true) :
    decodeFields i.opcode i.argByte 0#16 = .ok i := by
  cases i with
  | aesKeyinit dec => cases dec <;> rfl
  | aesRkread slot =>
    have hslot : ¬ 19 < slot.toNat := Nat.not_lt.2 (of_decide_eq_true hwf)
    simp [decodeFields, Instr.opcode, Instr.argByte, hslot]
  | _ => rfl

/-- A word decodes to a command exactly when its fields are those of that command and the command is well formed. -/
theorem decode_eq_ok_iff (w : Word) (i : Instr) : decode w = .ok i ↔
    i.wellFormed = true ∧ rsvField w = 0#16 ∧ argField w = i.argByte ∧ opField w = i.opcode := by
  constructor
  · intro h
    obtain ⟨hop, harg, hrsv, hwf⟩ := Machine.decodeFields_eq_ok h
    exact ⟨hwf, hrsv, harg, hop⟩
  · rintro ⟨hwf, hrsv, harg, hop⟩
    rw [decode, hrsv, harg, hop]
    exact decodeFields_opcode_argByte hwf

/-- Settles O1: decoding fixes the three fields, and a word is its fields. -/
theorem decodeAndEncodeAgree : Obligations.DecodeAndEncodeAgree := by
  unfold Obligations.DecodeAndEncodeAgree
  intro w i
  rw [decode_eq_ok_iff, encode, ← append_fields_inj, append_fields, eq_comm (a := w)]

/-! ## The match and mask table (R89) -/

/-- The ARG part of the mask column: the ARG bits that an opcode fixes (at 0). -/
def argMask (op : Byte) : Byte :=
  if op = 0x10#8 then 0xFE#8 else if op = 0x19#8 ∨ op = 0x25#8 then 0x00#8 else 0xFF#8

theorem Instr.maskBits_eq (i : Instr) : i.maskBits = 0xFFFF#16 ++ argMask i.opcode ++ 0xFF#8 := by
  cases i <;> simp [Instr.maskBits, Instr.opcode, argMask]

theorem Instr.matchBits_eq (i : Instr) : i.matchBits = 0#16 ++ 0#8 ++ i.opcode := by
  cases i <;> simp [Instr.matchBits, Instr.opcode]

/-- A word lies in the row of a command exactly when RSV and the ARG bits the opcode fixes are 0 and OP is the opcode. -/
theorem and_maskBits_eq_matchBits_iff (w : Word) (i : Instr) : w &&& i.maskBits = i.matchBits ↔
    rsvField w = 0#16 ∧ argField w &&& argMask i.opcode = 0#8 ∧ opField w = i.opcode := by
  have hrsv : rsvField w &&& 0xFFFF#16 = rsvField w := BitVec.and_allOnes
  have hop : opField w &&& 0xFF#8 = opField w := BitVec.and_allOnes
  rw [i.maskBits_eq, i.matchBits_eq]
  nth_rw 1 [← append_fields w]
  rw [BitVec.and_append, BitVec.and_append, append_fields_inj, hrsv, hop]

/-- The ARG byte of a command has no bit that its opcode fixes. -/
theorem Instr.argByte_and_argMask (i : Instr) : i.argByte &&& argMask i.opcode = 0#8 := by
  cases i with
  | aesKeyinit dec => cases dec <;> rfl
  | aesRkread arg | aesKeystep arg => exact BitVec.and_zero
  | _ => rfl

/-- A well-formed command with the opcode of AES_RKREAD has a slot up to 19 for its ARG byte. -/
theorem Instr.toNat_argByte_le {i : Instr} (hwf : i.wellFormed = true) (hop : i.opcode = 0x19#8) :
    i.argByte.toNat ≤ 19 := by
  cases i with
  | aesRkread slot => exact of_decide_eq_true hwf
  | _ => simp [Instr.opcode] at hop

/-- An ARG byte that the row of a command admits is that of a well-formed command with the same opcode. -/
theorem Instr.exists_argByte_eq (i : Instr) {arg : Byte} (hmask : arg &&& argMask i.opcode = 0#8)
    (hslot : i.opcode = 0x19#8 → arg.toNat ≤ 19) :
    ∃ j : Instr, j.opcode = i.opcode ∧ j.argByte = arg ∧ j.wellFormed = true := by
  cases i
  case aesKeyinit =>
    have hreserved : ∀ arg : Byte, arg &&& 0xFE#8 = 0#8 → arg.extractLsb' 1 7 = 0#7 := by decide
    exact ⟨.aesKeyinit (arg.getLsbD 0), rfl, (Machine.eq_argByte_of_keyinit (hreserved arg hmask)).symm, rfl⟩
  case aesRkread => exact ⟨.aesRkread arg, rfl, rfl, decide_eq_true (hslot rfl)⟩
  case aesKeystep => exact ⟨.aesKeystep arg, rfl, rfl, rfl⟩
  all_goals
    obtain rfl : arg = 0#8 := BitVec.and_allOnes.symm.trans hmask
    exact ⟨_, rfl, rfl, rfl⟩

/-- Settles O2: both sides say which RSV, ARG and OP the word has. -/
theorem matchMaskSelectsEachCommand : Obligations.MatchMaskSelectsEachCommand := by
  unfold Obligations.MatchMaskSelectsEachCommand
  intro w i
  rw [and_maskBits_eq_matchBits_iff]
  constructor
  · rintro ⟨j, hj, hji⟩
    obtain ⟨hwf, hrsv, harg, hop⟩ := (decode_eq_ok_iff w j).1 hj
    rw [← hji, harg]
    refine ⟨⟨hrsv, j.argByte_and_argMask, hop⟩, fun hrkread => ?_⟩
    rw [← argField, harg]
    exact Instr.toNat_argByte_le hwf hrkread
  · rintro ⟨⟨hrsv, hmask, hop⟩, hslot⟩
    obtain ⟨j, hji, harg, hwf⟩ := i.exists_argByte_eq hmask hslot
    exact ⟨j, (decode_eq_ok_iff w j).2 ⟨hwf, hrsv, harg.symm, hop.trans hji.symm⟩, hji⟩

/-! ## Words written out (R88, R93) -/

/-- Settles O4: the decoder computes on each word. -/
theorem specWordsDecode : Obligations.SpecWordsDecode :=
  ⟨rfl, rfl, rfl, rfl, rfl, rfl, rfl, rfl, rfl, rfl, rfl⟩

end Sys2Proof
end

section
/-! Host accesses that go through: a register access by bus address (30_encoding.md R86), and a memory access outside every
footprint in flight (R92; 00_scope.md R14). -/

namespace Sys2Proof.Machine

/-! ## A register access by bus address (R86) -/

/-- `Reg.ofOffset` inverts `Reg.offset` (R20, R41). -/
theorem Reg.ofOffset_offset (r : Reg) : Reg.ofOffset r.offset = r := by
  cases r with
  | key n | din n | dout n | rkin n => fin_cases n <;> rfl
  | reserved n =>
    have hindex : (0x060 + 4 * n) / 4 = 24 + n := by omega
    have hpast : registerMap[24 + n]? = none := List.getElem?_eq_none (Nat.le_add_right 24 n)
    simp [Reg.ofOffset, Reg.offset, hindex, hpast]
  | _ => rfl

theorem Reg.offset_mod_four (r : Reg) : r.offset % 4 = 0 := by
  cases r <;> simp only [Reg.offset] <;> omega

/-- Every register up to the last reserved offset, 0x0FC, lies in the block of 256 bytes. -/
theorem Reg.offset_lt {r : Reg} (hr : ∀ n, r = .reserved n → n < 40) : r.offset < 256 := by
  cases r with
  | reserved n => have := hr n rfl; simp only [Reg.offset]; omega
  | _ => simp only [Reg.offset]; omega

/-- Where no two register blocks share an address (R9), an address in the block of an instance brings that instance into focus. -/
theorem State.focusAddress_of_inFocus {s u : State} {k a : Nat} (hs : s.ParametersLegal) (hu : InFocus s u k)
    (ha : u.eng.ownsAddress a = true) : s.focusAddress a = some u := by
  obtain ⟨-, -, hdisjoint⟩ := hs
  have hfocus := State.focus_of_inFocus hu
  obtain ⟨-, -, hget, -⟩ := State.focus_eq_some hfocus
  obtain ⟨hk, heng⟩ := List.getElem?_eq_some_iff.1 hget
  have hfind : s.engines.findIdx? (fun e => e.ownsAddress a) = some k := by
    refine List.findIdx?_eq_some_iff_getElem.2 ⟨hk, by rw [heng]; exact ha, fun j hj hown => ?_⟩
    have happart := List.pairwise_iff_getElem.1 hdisjoint j k (hj.trans hk) hk hj
    rw [Engine.ownsAddress_iff] at ha hown
    rw [heng] at happart
    omega
  simp only [State.focusAddress, hfind, hfocus]

/-- The address of a register of an instance, 32 bits wide, has the form of a register access. -/
theorem accessForm_offset (e : Engine) (r : Reg) : accessForm e (e.base + r.offset) 32 = true := by
  simp [accessForm, r.offset_mod_four]

theorem busWrite_offset {s t : State} {r : Reg} (ht : s.focusAddress (t.eng.base + r.offset) = some t) (v : Word) :
    busWrite (t.eng.base + r.offset) 32 v s = hostWrite r v t := by
  simp [busWrite, ht, accessForm_offset, r.ofOffset_offset]

theorem busRead_offset {s t : State} {r : Reg} (ht : s.focusAddress (t.eng.base + r.offset) = some t) :
    busRead (t.eng.base + r.offset) 32 s = .next (hostRead r t) := by
  simp [busRead, ht, accessForm_offset, r.ofOffset_offset]

/-- Settles O18: the address of the register brings the instance into focus, and its offset names the register. -/
theorem busAccessReachesRegister : Obligations.BusAccessReachesRegister := by
  unfold Obligations.BusAccessReachesRegister
  intro s u k r v rest hlegal hr hu
  have howns : u.eng.ownsAddress (u.eng.base + r.offset) = true :=
    (Engine.ownsAddress_iff _ _).2 ⟨Nat.le_add_right _ _, Nat.add_lt_add_left (Reg.offset_lt hr) _⟩
  have hfocus : State.focusAddress { s with events := rest } (u.eng.base + r.offset) = some u :=
    State.focusAddress_of_inFocus hlegal hu howns
  exact ⟨fun hevents => (step_of_events hevents).trans (busWrite_offset hfocus v),
    fun hevents => (step_of_events hevents).trans (busRead_offset hfocus)⟩

/-! ## A memory access outside the footprints in flight (R14, R74, R92) -/

/-- A region meets none of a list of regions that contain none of its addresses. -/
theorem regionsMeet_singleton_eq_false {r : Region} {ts : List Region}
    (h : ∀ b, r.base ≤ b → b < r.base + r.size → ∀ t ∈ ts, t.contains b = false) : regionsMeet [r] ts = false := by
  rw [← Bool.not_eq_true, regionsMeet_iff]
  rintro ⟨b, ⟨_, hr, hb⟩, t, ht, htb⟩
  obtain rfl := List.mem_singleton.1 hr
  obtain ⟨hle, hlt⟩ := (Region.contains_iff _ _).1 hb
  exact absurd htb (by simp [h b hle hlt t ht])

section MemoryAccess
variable {s : State} {r : Region} (hr : r.base + r.size ≤ 2 ^ s.aw)
  (hflight : regionsMeet [r] s.footprintsInFlight = false)
include hr hflight

/-- Inside memory, outside every footprint in flight and in ordinary memory, an access goes on. -/
theorem memoryAccess_eq_next (hdevice : regionsMeet [r] s.deviceMem = false) (next : State) :
    memoryAccess s r next = .next next := by
  simp [memoryAccess, Nat.not_lt.2 hr, hflight, hdevice]

/-- Inside memory and outside every footprint in flight, an access to memory with read side effects is refused (log 16). -/
theorem memoryAccess_deviceAccess (hdevice : regionsMeet [r] s.deviceMem = true) (next : State) :
    memoryAccess s r next = .refused .deviceAccess := by
  simp [memoryAccess, Nat.not_lt.2 hr, hflight, hdevice]

end MemoryAccess

/-- Each byte written reads back. -/
theorem getElem?_eq_readByte_writeBytes {m : Memory} (hm : Memory.wf m) (a : Nat) {vs : List Byte} {k : Nat}
    (hk : k < vs.length) : vs[k]? = some (readByte (writeBytes m a vs) (a + k)) := by
  rw [readByte_writeBytes hm, if_pos (by omega)]
  simp [hk]

/-- Element k of the bytes read from memory. -/
theorem getElem?_readBytes (m : Memory) (a : Nat) {n k : Nat} (hk : k < n) :
    (readBytes m a n)[k]? = some (readByte m (a + k)) := by
  have hlen : k < (readBytes m a n).length := by rwa [length_readBytes]
  rw [← getD_readBytes m a n k 0x00#8 hk, List.getD_eq_getElem _ _ hlen, List.getElem?_eq_getElem hlen]

/-- Settles O20: a write and a read are both a `memoryAccess` to the region `[a, a + n)`. -/
theorem hostMemoryAccessOutsideFootprints : Obligations.HostMemoryAccessOutsideFootprints := by
  unfold Obligations.HostMemoryAccessOutsideFootprints
  rintro s a n bytes rest hwf houtside hn rfl
  have hflight : regionsMeet [⟨a, bytes.length⟩] s.footprintsInFlight = false := by
    refine regionsMeet_singleton_eq_false fun b hab hbn t ht => ?_
    obtain ⟨e, he, hbusy, ht⟩ := (State.mem_footprintsInFlight s t).1 ht
    exact houtside b hab hbn e he hbusy t ht
  constructor
  · intro hordinary
    have haccess (next : State) : memoryAccess { s with events := rest } ⟨a, bytes.length⟩ next = .next next :=
      memoryAccess_eq_next hn hflight (regionsMeet_singleton_eq_false hordinary) next
    refine ⟨fun hevents => ?_, fun hevents => ?_⟩
    · exact ⟨_, (step_of_events hevents).trans (haccess _), rfl, fun k hk => getElem?_eq_readByte_writeBytes hwf a hk,
        fun b hb => readByte_writeBytes_other hwf hb⟩
    · exact ⟨_, (step_of_events hevents).trans (haccess _), rfl, length_readBytes _ _ _,
        fun k hk => getElem?_readBytes _ a hk⟩
  · rintro ⟨b, hab, hbn, d, hd, hdb⟩
    have hmeet : regionsMeet [⟨a, bytes.length⟩] s.deviceMem = true :=
      (regionsMeet_iff _ _).2 ⟨b, ⟨_, List.mem_singleton.2 rfl, (Region.contains_iff _ _).2 ⟨hab, hbn⟩⟩, d, hd, hdb⟩
    have haccess (next : State) :
        memoryAccess { s with events := rest } ⟨a, bytes.length⟩ next = .refused .deviceAccess :=
      memoryAccess_deviceAccess hn hflight hmeet next
    exact ⟨fun hevents => (step_of_events hevents).trans (haccess _),
      fun hevents => (step_of_events hevents).trans (haccess _)⟩

end Sys2Proof.Machine
end

section
/-! The field GF(2^8) behind the block cipher (40_block_cipher_core.md R100 to R103): multiplication distributes over
exclusive-or, is commutative and associative, so inverses are unique; and the S-box table against them. -/

namespace Sys2Proof.Machine

/-! ## Doubling and multiplication are linear (R100) -/

/-- Doubling as a shift of the Byte itself, 0x1B standing for the reduction by 0x11B. -/
theorem xtime_eq (a : Byte) : xtime a = a <<< 1 ^^^ (if a.msb then 0x1B#8 else 0x00#8) := by
  revert a; decide

theorem xtime_xor (a b : Byte) : xtime (a ^^^ b) = xtime a ^^^ xtime b := by
  have hreduce (p q : Bool) : (if p ^^ q then 0x1B#8 else 0x00#8) =
      (if p then 0x1B#8 else 0x00#8) ^^^ (if q then 0x1B#8 else 0x00#8) := by
    cases p <;> cases q <;> rfl
  rw [xtime_eq, xtime_eq, xtime_eq, BitVec.shiftLeft_xor_distrib, BitVec.msb_xor, hreduce]
  ac_rfl

@[simp] theorem xtime_zero : xtime 0x00#8 = 0x00#8 := rfl

theorem xtimes_xor (i : Nat) (a b : Byte) : xtimes i (a ^^^ b) = xtimes i a ^^^ xtimes i b := by
  induction i with
  | zero => rfl
  | succ i ih => simp only [xtimes, ih, xtime_xor]

@[simp] theorem xtimes_zero (i : Nat) : xtimes i 0x00#8 = 0x00#8 := by
  induction i with
  | zero => rfl
  | succ i ih => rw [xtimes, ih, xtime_zero]

/-- Doublings add up, so they commute. -/
theorem xtimes_xtimes (i j : Nat) (a : Byte) : xtimes i (xtimes j a) = xtimes (i + j) a := by
  induction i with
  | zero => rw [Nat.zero_add, xtimes]
  | succ i ih => rw [xtimes, ih, Nat.succ_add, xtimes]

theorem gmulBits_xor (a b c : Byte) (n : Nat) : gmulBits (a ^^^ b) c n = gmulBits a c n ^^^ gmulBits b c n := by
  induction n with
  | zero => rw [gmulBits, gmulBits, gmulBits, BitVec.xor_zero]
  | succ n ih =>
    simp only [gmulBits, ih, xtimes_xor]
    split
    · ac_rfl
    · simp

@[simp] theorem gmulBits_zero_left (c : Byte) (n : Nat) : gmulBits 0x00#8 c n = 0x00#8 := by
  induction n with
  | zero => rfl
  | succ n ih => simp [gmulBits, ih]

theorem gmulBits_xtimes (i : Nat) (a c : Byte) (n : Nat) : gmulBits (xtimes i a) c n = xtimes i (gmulBits a c n) := by
  induction n with
  | zero => rw [gmulBits, gmulBits, xtimes_zero]
  | succ n ih =>
    rw [gmulBits, gmulBits, xtimes_xor, ih, xtimes_xtimes, apply_ite (xtimes i), xtimes_zero, xtimes_xtimes,
      Nat.add_comm]

theorem gmul_xor_left (a b c : Byte) : gmul (a ^^^ b) c = gmul a c ^^^ gmul b c := gmulBits_xor a b c 8

/-- Multiplications by two Bytes commute: each is a sum of doublings. -/
theorem gmulBits_right_comm (a b c : Byte) (m n : Nat) :
    gmulBits (gmulBits a b m) c n = gmulBits (gmulBits a c n) b m := by
  induction m with
  | zero => rw [gmulBits, gmulBits, gmulBits_zero_left]
  | succ m ih =>
    rw [gmulBits, gmulBits, gmulBits_xor, ih, apply_ite (gmulBits · c n), gmulBits_xtimes, gmulBits_zero_left]

theorem gmul_right_comm (a b c : Byte) : gmul (gmul a b) c = gmul (gmul a c) b :=
  gmulBits_right_comm a b c 8 8

@[simp] theorem one_gmul (a : Byte) : gmul 0x01#8 a = a := by
  revert a; decide

theorem gmul_comm (a b : Byte) : gmul a b = gmul b a :=
  calc gmul a b = gmul (gmul 0x01#8 a) b := by rw [one_gmul]
    _ = gmul (gmul 0x01#8 b) a := gmul_right_comm _ a b
    _ = gmul b a := by rw [one_gmul]

theorem gmul_assoc (a b c : Byte) : gmul (gmul a b) c = gmul a (gmul b c) := by
  rw [gmul_comm a b, gmul_right_comm, gmul_comm a]

theorem gmul_xor_right (a b c : Byte) : gmul a (b ^^^ c) = gmul a b ^^^ gmul a c := by
  simp only [gmul_comm a, gmul_xor_left]

@[simp] theorem gmul_one (a : Byte) : gmul a 0x01#8 = a := by rw [gmul_comm, one_gmul]

@[simp] theorem gmul_zero (a : Byte) : gmul a 0x00#8 = 0x00#8 := by simp [gmul, gmulBits]

/-- A Byte has at most one inverse. -/
theorem eq_of_gmul_eq_one {a c d : Byte} (hc : gmul a c = 0x01#8) (hd : gmul a d = 0x01#8) : c = d :=
  calc c = gmul (gmul a d) c := by rw [hd, one_gmul]
    _ = gmul (gmul a c) d := gmul_right_comm a d c
    _ = d := by rw [hc, one_gmul]

/-! ## The S-box (R101 to R103) -/

/-- The affine map of R102. -/
def affineMap (c : Byte) : Byte :=
  c ^^^ c.rotateLeft 1 ^^^ c.rotateLeft 2 ^^^ c.rotateLeft 3 ^^^ c.rotateLeft 4 ^^^ 0x63#8

/-- The inverse of the affine map. -/
def invAffineMap (c : Byte) : Byte := c.rotateLeft 1 ^^^ c.rotateLeft 3 ^^^ c.rotateLeft 6 ^^^ 0x05#8

@[simp] theorem affineMap_invAffineMap (c : Byte) : affineMap (invAffineMap c) = c := by
  revert c; decide

/-- The table holds the field inverse of every Byte but 0, under the affine map. -/
theorem gmul_invAffineMap_sbox {a : Byte} (ha : a ≠ 0x00#8) : gmul a (invAffineMap (sbox a)) = 0x01#8 := by
  revert a; decide

/-- So the table holds the affine map of whatever Byte is the inverse. -/
theorem sbox_eq_affineMap {a c : Byte} (ha : a ≠ 0x00#8) (hc : gmul a c = 0x01#8) : sbox a = affineMap c := by
  rw [eq_of_gmul_eq_one hc (gmul_invAffineMap_sbox ha), affineMap_invAffineMap]

@[simp] theorem invSbox_sbox (a : Byte) : invSbox (sbox a) = a := by
  revert a; decide

@[simp] theorem sbox_invSbox (a : Byte) : sbox (invSbox a) = a := by
  revert a; decide

/-- Settles O33: the inverse of a Byte is the one the table holds. -/
theorem sboxIsAffineOfInverse : Obligations.SboxIsAffineOfInverse := by
  unfold Obligations.SboxIsAffineOfInverse
  refine ⟨fun a c hzero hone => ?_, fun a => ⟨invSbox_sbox a, sbox_invSbox a⟩⟩
  by_cases ha : a = 0x00#8
  · rw [ha, hzero ha]; rfl
  · exact sbox_eq_affineMap ha (hone ha)

end Sys2Proof.Machine
end

section
/-! The round transforms and their inverses, and block decryption against block encryption (40_block_cipher_core.md R105 to
R118). -/

namespace Sys2Proof

/-! ## Transforms of each column on its own -/

/-- Column transforms that undo each other on columns do so on Blocks. -/
theorem Block.mapColumns_leftInverse {f g : Column → Column} (h : Function.LeftInverse f g) (b : Block) :
    (b.mapColumns g).mapColumns f = b := by
  show Block.ofColumns (f (g b.col0)) (f (g b.col1)) (f (g b.col2)) (f (g b.col3)) = b
  rw [h, h, h, h]
  rfl

/-- A column transform linear on columns is linear on Blocks. -/
theorem Block.mapColumns_xor {f : Column → Column} (h : ∀ a b, f (a.xor b) = (f a).xor (f b)) (a b : Block) :
    (a.xor b).mapColumns f = (a.mapColumns f).xor (b.mapColumns f) := by
  show Block.ofColumns (f (a.col0.xor b.col0)) (f (a.col1.xor b.col1)) (f (a.col2.xor b.col2))
    (f (a.col3.xor b.col3)) = _
  rw [h, h, h, h]
  rfl

end Sys2Proof

namespace Sys2Proof.Machine

/-! ## SubBytes (R105) -/

@[simp] theorem invSubBytes_subBytes (b : Block) : invSubBytes (subBytes b) = b := by
  simp [invSubBytes, subBytes, Block.mapBytes]

@[simp] theorem subBytes_invSubBytes (b : Block) : subBytes (invSubBytes b) = b := by
  simp [invSubBytes, subBytes, Block.mapBytes]

/-! ## MixColumns (R108, R109)

Both matrices are circulant, so each is given by its first row, and so is their product. -/

/-- The scalar product of a row with a column. -/
def rowTimes (m a : Column) : Byte := gmul a.r0 m.r0 ^^^ gmul a.r1 m.r1 ^^^ gmul a.r2 m.r2 ^^^ gmul a.r3 m.r3

/-- A column rotated up by one. -/
def rotateColumn (a : Column) : Column := ⟨a.r1, a.r2, a.r3, a.r0⟩

/-- The circulant matrix with first row `m` times the column `a`: rotating the row down is rotating the column up. -/
def circulantTimes (m a : Column) : Column :=
  ⟨rowTimes m a, rowTimes m (rotateColumn a), rowTimes m (rotateColumn (rotateColumn a)),
    rowTimes m (rotateColumn (rotateColumn (rotateColumn a)))⟩

/-- The first row of the product of the circulant matrices with first rows `m` and `n`. -/
def circulantProduct (m n : Column) : Column :=
  ⟨gmul n.r0 m.r0 ^^^ gmul n.r3 m.r1 ^^^ gmul n.r2 m.r2 ^^^ gmul n.r1 m.r3,
    gmul n.r1 m.r0 ^^^ gmul n.r0 m.r1 ^^^ gmul n.r3 m.r2 ^^^ gmul n.r2 m.r3,
    gmul n.r2 m.r0 ^^^ gmul n.r1 m.r1 ^^^ gmul n.r0 m.r2 ^^^ gmul n.r3 m.r3,
    gmul n.r3 m.r0 ^^^ gmul n.r2 m.r1 ^^^ gmul n.r1 m.r2 ^^^ gmul n.r0 m.r3⟩

theorem rowTimes_xor (m a b : Column) : rowTimes m (a.xor b) = rowTimes m a ^^^ rowTimes m b := by
  simp only [rowTimes, Column.xor, gmul_xor_left]
  ac_rfl

theorem circulantTimes_xor (m a b : Column) :
    circulantTimes m (a.xor b) = (circulantTimes m a).xor (circulantTimes m b) :=
  Column.ext (rowTimes_xor m a b) (rowTimes_xor m (rotateColumn a) (rotateColumn b))
    (rowTimes_xor m (rotateColumn (rotateColumn a)) (rotateColumn (rotateColumn b)))
    (rowTimes_xor m (rotateColumn (rotateColumn (rotateColumn a))) (rotateColumn (rotateColumn (rotateColumn b))))

theorem rowTimes_circulantTimes (m n a : Column) :
    rowTimes m (circulantTimes n a) = rowTimes (circulantProduct m n) a := by
  simp only [rowTimes, circulantTimes, rotateColumn, circulantProduct, gmul_xor_left, gmul_xor_right, gmul_assoc]
  ac_rfl

theorem circulantTimes_circulantTimes (m n a : Column) :
    circulantTimes m (circulantTimes n a) = circulantTimes (circulantProduct m n) a :=
  Column.ext (rowTimes_circulantTimes m n a) (rowTimes_circulantTimes m n (rotateColumn a))
    (rowTimes_circulantTimes m n (rotateColumn (rotateColumn a)))
    (rowTimes_circulantTimes m n (rotateColumn (rotateColumn (rotateColumn a))))

/-- The circulant matrix of 1 is the identity. -/
theorem circulantTimes_one (a : Column) : circulantTimes ⟨0x01#8, 0x00#8, 0x00#8, 0x00#8⟩ a = a := by
  ext1 <;> simp [circulantTimes, rowTimes, rotateColumn]

/-- The first row of the matrix of MixColumns. -/
def mixRow : Column := ⟨0x02#8, 0x03#8, 0x01#8, 0x01#8⟩

/-- The first row of the matrix of InvMixColumns. -/
def invMixRow : Column := ⟨0x0e#8, 0x0b#8, 0x0d#8, 0x09#8⟩

theorem mixColumn_eq (a : Column) : mixColumn a = circulantTimes mixRow a := by
  ext1 <;> simp only [mixColumn, circulantTimes, rowTimes, rotateColumn, mixRow, gmul_one] <;> ac_rfl

theorem invMixColumn_eq (a : Column) : invMixColumn a = circulantTimes invMixRow a := by
  ext1 <;> simp only [invMixColumn, circulantTimes, rowTimes, rotateColumn, invMixRow] <;> ac_rfl

theorem circulantProduct_invMixRow_mixRow :
    circulantProduct invMixRow mixRow = ⟨0x01#8, 0x00#8, 0x00#8, 0x00#8⟩ := by decide

theorem circulantProduct_mixRow_invMixRow :
    circulantProduct mixRow invMixRow = ⟨0x01#8, 0x00#8, 0x00#8, 0x00#8⟩ := by decide

theorem invMixColumn_mixColumn : Function.LeftInverse invMixColumn mixColumn := by
  intro a
  rw [mixColumn_eq, invMixColumn_eq, circulantTimes_circulantTimes, circulantProduct_invMixRow_mixRow,
    circulantTimes_one]

theorem mixColumn_invMixColumn : Function.LeftInverse mixColumn invMixColumn := by
  intro a
  rw [invMixColumn_eq, mixColumn_eq, circulantTimes_circulantTimes, circulantProduct_mixRow_invMixRow,
    circulantTimes_one]

theorem invMixColumn_xor (a b : Column) : invMixColumn (a.xor b) = (invMixColumn a).xor (invMixColumn b) := by
  simp only [invMixColumn_eq, circulantTimes_xor]

@[simp] theorem invMixColumns_mixColumns (b : Block) : invMixColumns (mixColumns b) = b :=
  Block.mapColumns_leftInverse invMixColumn_mixColumn b

@[simp] theorem mixColumns_invMixColumns (b : Block) : mixColumns (invMixColumns b) = b :=
  Block.mapColumns_leftInverse mixColumn_invMixColumn b

theorem invMixColumns_xor (a b : Block) : invMixColumns (a.xor b) = (invMixColumns a).xor (invMixColumns b) :=
  Block.mapColumns_xor invMixColumn_xor a b

/-- Settles O34: inverse and linear column by column; the two fixed Blocks by computing them. -/
theorem invMixColumnsInvertsMixColumns : Obligations.InvMixColumnsInvertsMixColumns :=
  ⟨invMixColumns_mixColumns, invMixColumns_xor, rfl, rfl⟩

/-! ## Rounds (R110, R111)

Decryption with the equivalent inverse keys walks back the state of encryption as it is after SubBytes and ShiftRows. -/

/-- SubBytes and ShiftRows, the part of a round that InvShiftRows and InvSubBytes undo. -/
def substShift (s : Block) : Block := shiftRows (subBytes s)

/-- InvShiftRows and InvSubBytes. -/
def invSubstShift (s : Block) : Block := invSubBytes (invShiftRows s)

@[simp] theorem invSubstShift_substShift (s : Block) : invSubstShift (substShift s) = s := by
  simp [invSubstShift, substShift]

@[simp] theorem substShift_invSubstShift (s : Block) : substShift (invSubstShift s) = s := by
  simp [invSubstShift, substShift]

theorem encRound_eq (s k : Block) : encRound s k = (mixColumns (substShift s)).xor k := rfl

theorem encLast_eq (s k : Block) : encLast s k = (substShift s).xor k := rfl

theorem decLast_eq (s k : Block) : decLast s k = (invSubstShift s).xor k := rfl

/-- A round of decryption with an equivalent inverse key: the key goes in before InvMixColumns. -/
theorem decRound_invMixColumns (s k : Block) :
    decRound s (invMixColumns k) = invMixColumns ((invSubstShift s).xor k) :=
  (invMixColumns_xor _ _).symm

theorem decRound_substShift_encRound (s k : Block) :
    decRound (substShift (encRound s k)) (invMixColumns k) = substShift s := by
  rw [decRound_invMixColumns, invSubstShift_substShift, encRound_eq, Block.xor_xor_self, invMixColumns_mixColumns]

theorem encRound_invSubstShift_decRound (s k : Block) :
    encRound (invSubstShift (decRound s (invMixColumns k))) k = invSubstShift s := by
  rw [encRound_eq, substShift_invSubstShift, decRound_invMixColumns, mixColumns_invMixColumns, Block.xor_xor_self]

/-! ## Decryption against encryption (R116 to R118) -/

/-- The equivalent inverse keys of a forward schedule (R115). -/
def equivKeys (rk : Nat → Block) (m : Nat) : Block := invMixColumns (rk (9 - m))

/-- After m middle rounds, decryption of an encrypted Block is back at round 9 - m. -/
theorem decRounds_encryptBlock (b : Block) (rk : Nat → Block) {m : Nat} (hm : m ≤ 9) :
    decRounds (encryptBlock b rk) rk (equivKeys rk) m = substShift (encRounds b rk (9 - m)) := by
  induction m with
  | zero => rw [decRounds, encryptBlock, encLast_eq, Block.xor_xor_self]
  | succ m ih =>
    have hround : 9 - m = 9 - (m + 1) + 1 := by omega
    rw [decRounds, ih (by omega), equivKeys, hround, encRounds, decRound_substShift_encRound]

/-- After r rounds, encryption of a decrypted Block is back at middle round 9 - r. -/
theorem encRounds_decryptBlock (b : Block) (rk : Nat → Block) {r : Nat} (hr : r ≤ 9) :
    encRounds (decryptBlock b rk (equivKeys rk)) rk r = invSubstShift (decRounds b rk (equivKeys rk) (9 - r)) := by
  induction r with
  | zero => rw [encRounds, decryptBlock, decLast_eq, Block.xor_xor_self]
  | succ r ih =>
    have hround : 9 - r = 9 - (r + 1) + 1 := by omega
    have hkey : 9 - (9 - (r + 1)) = r + 1 := by omega
    rw [encRounds, ih (by omega), hround, decRounds, equivKeys, hkey, encRound_invSubstShift_decRound]

/-- Decryption inverts encryption, for any forward keys. -/
theorem decryptBlock_encryptBlock (b : Block) (rk : Nat → Block) :
    decryptBlock (encryptBlock b rk) rk (equivKeys rk) = b := by
  rw [decryptBlock, decRounds_encryptBlock b rk le_rfl, decLast_eq, invSubstShift_substShift, encRounds,
    Block.xor_xor_self]

/-- Encryption inverts decryption, for any forward keys. -/
theorem encryptBlock_decryptBlock (b : Block) (rk : Nat → Block) :
    encryptBlock (decryptBlock b rk (equivKeys rk)) rk = b := by
  rw [encryptBlock, encRounds_decryptBlock b rk le_rfl, encLast_eq, substShift_invSubstShift, decRounds,
    Block.xor_xor_self]

/-- Settles O35: whatever the expanded key, its equivalent inverse keys walk the rounds back. -/
theorem decryptInvertsEncrypt : Obligations.DecryptInvertsEncrypt :=
  fun k b => ⟨decryptBlock_encryptBlock b (roundKey k), encryptBlock_decryptBlock b (roundKey k)⟩

end Sys2Proof.Machine
end

section
/-! The key schedule and the round primitives as commands (40_block_cipher_core.md R119 to R126): their checks pass and
they access no memory, so each completes with its effect. -/

namespace Sys2Proof.Machine

/-- A command that accesses no memory completes with its effect once its checks pass. -/
theorem exec_eq_finish {i : Instr} {s t : State} (hport : portAccesses i s.eng.latch = [])
    (hchecks : ∀ c ∈ checksOf i s, c = none) (heffect : effectOf i s s = .ok t) : exec i s = .next (finish t) := by
  rw [exec_eq_command, hport]
  exact command_ok (firstError_eq_none.2 hchecks) (regionsMeet_nil_left _) heffect

@[simp] theorem requireBcu_eq_none {s : State} : requireBcu s = none ↔ s.eng.hasAes = true := by simp [requireBcu]

@[simp] theorem requireKey_eq_none {s : State} : requireKey s = none ↔ s.eng.keyValid = true := by simp [requireKey]

@[simp] theorem requireSlot_eq_none {slot : Byte} : requireSlot slot = none ↔ slot.toNat < 20 := by
  simp [requireSlot, slotLegal, Nat.lt_succ_iff]

@[simp] theorem requireSlotValid_eq_none {slot : Byte} {s : State} :
    requireSlotValid slot s = none ↔ (11 ≤ slot.toNat → s.eng.invValid = true) := by
  simp [requireSlotValid, requireInvKey]

/-- Completing after a write to DOUT. -/
theorem finish_setDout (b : Block) (s : State) : finish (setDout b s) = withDout s b := rfl

/-- Settles O29: AES_KEYINIT completes with `loadKey`, whose slots the lemmas on `keySchedule` give. -/
theorem keyinitExpandsKey : Obligations.KeyinitExpandsKey := by
  unfold Obligations.KeyinitExpandsKey
  intro s dec haes
  have hexec : exec (.aesKeyinit dec) s = .next (finish (loadKey dec s)) :=
    exec_eq_finish rfl (by simpa [checksOf] using haes) rfl
  refine ⟨_, hexec, fun r hr => Engine.slot_keySchedule_forward rfl hr, ?_, rfl⟩
  rintro rfl m hm
  exact Engine.slot_keySchedule_inverse (d := s.draws) rfl hm

/-- Settles O30: the four checks of AES_RKREAD are the hypotheses. -/
theorem rkreadReadsSlot : Obligations.RkreadReadsSlot := by
  unfold Obligations.RkreadReadsSlot
  intro s slot hslot haes hkey hinv
  have hread : s.eng.slot slot.toNat = s.eng.rks[slot.toNat] := dif_pos hslot
  rw [← hread, ← finish_setDout]
  exact exec_eq_finish rfl (by simpa [checksOf, hslot, haes, hkey] using hinv) rfl

/-- Settles O31: the one check of a round primitive is that the unit is present. -/
theorem roundPrimitivesWriteDout : Obligations.RoundPrimitivesWriteDout := by
  unfold Obligations.RoundPrimitivesWriteDout
  intro s rc haes
  have hprimitive {i : Instr} {b : Block} (hport : portAccesses i s.eng.latch = [])
      (hchecks : checksOf i s = [requireBcu s]) (heffect : effectOf i s s = .ok (setDout b s)) :
      exec i s = .next (withDout s b) :=
    exec_eq_finish hport (by simpa [hchecks] using haes) heffect
  exact ⟨hprimitive rfl rfl rfl, hprimitive rfl rfl rfl, hprimitive rfl rfl rfl, hprimitive rfl rfl rfl,
    hprimitive rfl rfl rfl, hprimitive rfl rfl rfl⟩

end Sys2Proof.Machine
end

section
/-! The block cipher modes (41_block_cipher_modes.md R140 to R153). A block buffer command whose checks pass completes
with its loop; each mode is then a property of its one-Block function, and the round trips rest on one lemma: a loop undoes
another when its one-Block function does. -/

namespace Sys2Proof.Machine

/-! ## The single-block commands (R141, R142) -/

@[simp] theorem requireInvKey_eq_none {s : State} : requireInvKey s = none ↔ s.eng.invValid = true := by
  simp [requireInvKey]

/-- Settles O32: the checks of the two commands are the hypotheses. -/
theorem singleBlockCommandsWriteDout : Obligations.SingleBlockCommandsWriteDout := by
  unfold Obligations.SingleBlockCommandsWriteDout
  intro s haes hkey
  simp only [← finish_setDout]
  exact ⟨exec_eq_finish rfl (by simp [checksOf, haes, hkey]) rfl,
    fun hinv => exec_eq_finish rfl (by simp [checksOf, haes, hkey, hinv]) rfl⟩

/-! ## Completing a block buffer command (R140, R222) -/

/-- The state after a block buffer command with the one-Block function `f`. -/
def bufferDone (f : Block → Block → Block × Block) (s : State) : State := finish (setMem (bufferResult f s) s)

@[simp] theorem bufferDone_mem (f : Block → Block → Block × Block) (s : State) :
    (bufferDone f s).mem = bufferResult f s := rfl

@[simp] theorem requireWholeBlocks_eq_none {s : State} :
    requireWholeBlocks s = none ↔ s.eng.latch.len.toNat % 16 = 0 := by simp [requireWholeBlocks]

/-- With a good buffer and its flag checks passed, a block buffer command completes with its loop. -/
theorem bufferCommand_eq_next {s : State} (hs : BlockBufferReady s) {flags : List (Option ErrCode)}
    (hflags : ∀ c ∈ flags, c = none) (f : Block → Block → Block × Block) :
    bufferCommand s flags f = .next (bufferDone f s) := by
  obtain ⟨-, haes, hlen, hrange, hport⟩ := hs
  refine command_ok (firstError_eq_none.2 fun c hc => ?_) hport rfl
  simp only [List.cons_append, List.mem_cons, List.mem_append, List.not_mem_nil, or_false] at hc
  rcases hc with rfl | hc | rfl | rfl
  · exact requireBcu_eq_none.2 haes
  · exact hflags c hc
  · exact requireWholeBlocks_eq_none.2 hlen
  · exact (requireRange_eq_none_iff s _).2 hrange

section Completion
variable {s : State} (hs : BlockBufferReady s)
include hs

theorem exec_aesEcbEnc (hkey : s.eng.keyValid = true) :
    exec .aesEcbEnc s = .next (bufferDone (ecbEncBlock s.eng) s) :=
  bufferCommand_eq_next hs (by simp [hkey]) _

theorem exec_aesEcbDec (hkey : s.eng.keyValid = true) (hinv : s.eng.invValid = true) :
    exec .aesEcbDec s = .next (bufferDone (ecbDecBlock s.eng) s) :=
  bufferCommand_eq_next hs (by simp [hkey, hinv]) _

theorem exec_aesCbcEnc (hkey : s.eng.keyValid = true) :
    exec .aesCbcEnc s = .next (bufferDone (cbcEncBlock s.eng) s) :=
  bufferCommand_eq_next hs (by simp [hkey]) _

theorem exec_aesCbcDec (hkey : s.eng.keyValid = true) (hinv : s.eng.invValid = true) :
    exec .aesCbcDec s = .next (bufferDone (cbcDecBlock s.eng) s) :=
  bufferCommand_eq_next hs (by simp [hkey, hinv]) _

theorem exec_xorChainEnc : exec .xorChainEnc s = .next (bufferDone xorEncBlock s) :=
  bufferCommand_eq_next hs (by simp) _

theorem exec_xorChainDec : exec .xorChainDec s = .next (bufferDone xorDecBlock s) :=
  bufferCommand_eq_next hs (by simp) _

end Completion

/-! ## The Blocks of the buffer afterwards -/

/-- The chain value of a mode that chains the Block written (R145, R147). -/
theorem chainValue_of_written {f : Block → Block → Block × Block} (hf : ∀ prev x, (f prev x).2 = (f prev x).1)
    {m : Memory} (hm : Memory.wf m) {n k : Nat} (hk : k ≤ n) (a : Nat) (prev : Block) :
    chainValue f m a prev k = if k = 0 then prev else readBlock (blockLoop f n a prev m) (a + 16 * (k - 1)) := by
  cases k with
  | zero => rfl
  | succ k =>
    rw [if_neg k.succ_ne_zero, Nat.add_sub_cancel, readBlock_blockLoop hm f n a prev hk, ← hf]
    rfl

/-- The chain value of a mode that chains the Block read (R146, R148). -/
theorem chainValue_of_read {f : Block → Block → Block × Block} (hf : ∀ prev x, (f prev x).2 = x)
    (m : Memory) (a : Nat) (prev : Block) (k : Nat) :
    chainValue f m a prev k = if k = 0 then prev else readBlock m (a + 16 * (k - 1)) := by
  cases k with
  | zero => rfl
  | succ k => exact hf _ _

section Blocks
variable {s : State} (hs : BlockBufferReady s) {f : Block → Block → Block × Block}
include hs

/-- A block buffer command leaves every byte outside its buffer. -/
theorem bufferDone_outsideBufferUnchanged (f : Block → Block → Block × Block) :
    OutsideBufferUnchanged s (bufferDone f s) :=
  fun _ ha => readByte_bufferResult_other hs.1 f ((Region.contains_eq_false_iff _ _).2 ha)

/-- Block k after a command that takes each Block on its own. -/
theorem readBlock_bufferDone_of_each {g : Block → Block} (hf : ∀ prev x, (f prev x).1 = g x) {k : Nat}
    (hk : k < s.eng.latch.len.toNat / 16) :
    readBlock (bufferDone f s).mem (s.eng.latch.addr.toNat + 16 * k) =
      g (readBlock s.mem (s.eng.latch.addr.toNat + 16 * k)) :=
  (readBlock_blockLoop hs.1 f _ _ _ hk).trans (hf _ _)

/-- Block k after a command that chains the Block it writes. -/
theorem readBlock_bufferDone_of_written (hf : ∀ prev x, (f prev x).2 = (f prev x).1) {k : Nat}
    (hk : k < s.eng.latch.len.toNat / 16) :
    readBlock (bufferDone f s).mem (s.eng.latch.addr.toNat + 16 * k) =
      (f (if k = 0 then Block.zero else readBlock (bufferDone f s).mem (s.eng.latch.addr.toNat + 16 * (k - 1)))
        (readBlock s.mem (s.eng.latch.addr.toNat + 16 * k))).1 := by
  rw [bufferDone_mem, bufferResult, ← chainValue_of_written hf hs.1 hk.le]
  exact readBlock_blockLoop hs.1 f _ _ _ hk

/-- Block k after a command that chains the Block it reads. -/
theorem readBlock_bufferDone_of_read (hf : ∀ prev x, (f prev x).2 = x) {k : Nat}
    (hk : k < s.eng.latch.len.toNat / 16) :
    readBlock (bufferDone f s).mem (s.eng.latch.addr.toNat + 16 * k) =
      (f (if k = 0 then Block.zero else readBlock s.mem (s.eng.latch.addr.toNat + 16 * (k - 1)))
        (readBlock s.mem (s.eng.latch.addr.toNat + 16 * k))).1 := by
  rw [← chainValue_of_read hf]
  exact readBlock_blockLoop hs.1 f _ _ _ hk

end Blocks

/-- Settles O36: both one-Block functions ignore the chain value. -/
theorem ecbTransformsEachBlock : Obligations.EcbTransformsEachBlock := by
  unfold Obligations.EcbTransformsEachBlock
  intro s hs hkey
  exact ⟨⟨_, exec_aesEcbEnc hs hkey, rfl, bufferDone_outsideBufferUnchanged hs _,
      fun _ => readBlock_bufferDone_of_each hs (g := s.eng.encrypt) fun _ _ => rfl⟩,
    fun hinv => ⟨_, exec_aesEcbDec hs hkey hinv, rfl, bufferDone_outsideBufferUnchanged hs _,
      fun _ => readBlock_bufferDone_of_each hs (g := s.eng.decrypt) fun _ _ => rfl⟩⟩

/-- Settles O37: encryption chains the Block written, decryption the Block read. -/
theorem cbcChainsCiphertextBlocks : Obligations.CbcChainsCiphertextBlocks := by
  unfold Obligations.CbcChainsCiphertextBlocks
  intro s hs hkey
  exact ⟨⟨_, exec_aesCbcEnc hs hkey, rfl, bufferDone_outsideBufferUnchanged hs _,
      fun _ => readBlock_bufferDone_of_written hs fun _ _ => rfl⟩,
    fun hinv => ⟨_, exec_aesCbcDec hs hkey hinv, rfl, bufferDone_outsideBufferUnchanged hs _,
      fun _ => readBlock_bufferDone_of_read hs fun _ _ => rfl⟩⟩

/-- Settles O38: the XOR chain chains as CBC does, with no cipher and no key. -/
theorem xorChainChainsBlocks : Obligations.XorChainChainsBlocks := by
  unfold Obligations.XorChainChainsBlocks
  intro s hs
  exact ⟨⟨_, exec_xorChainEnc hs, rfl, bufferDone_outsideBufferUnchanged hs _,
      fun _ => readBlock_bufferDone_of_written hs fun _ _ => rfl⟩,
    ⟨_, exec_xorChainDec hs, rfl, bufferDone_outsideBufferUnchanged hs _,
      fun _ => readBlock_bufferDone_of_read hs fun _ _ => rfl⟩⟩

/-! ## One loop undoes another (R149 to R151) -/

/-- From the same chain value, `g` gives back the Block that `f` read, and goes on with the chain value that `f` goes on
with. -/
def Undoes (g f : Block → Block → Block × Block) : Prop := ∀ prev x, g prev (f prev x).1 = (x, (f prev x).2)

/-- Equal Blocks hold equal bytes. -/
theorem readByte_of_readBlock_eq {m m' : Memory} {a j : Nat} (h : readBlock m' a = readBlock m a) (hj : j < 16) :
    readByte m' (a + j) = readByte m (a + j) := by
  have hbytes : readBytes m' a 16 = readBytes m a 16 := congrArg Block.toBytes h
  rw [← getD_readBytes m' a 16 j 0x00#8 hj, hbytes, getD_readBytes m a 16 j _ hj]

/-- Both loops pass through the same chain values. -/
theorem chainValue_blockLoop {f g : Block → Block → Block × Block} (hgf : Undoes g f) {m : Memory}
    (hm : Memory.wf m) {n k : Nat} (hk : k ≤ n) (a : Nat) (prev : Block) :
    chainValue g (blockLoop f n a prev m) a prev k = chainValue f m a prev k := by
  induction k with
  | zero => rfl
  | succ k ih => rw [chainValue, ih (by omega), readBlock_blockLoop hm f n a prev hk, hgf, chainValue]

/-- A loop undoes another when its one-Block function does. -/
theorem blockLoop_blockLoop {f g : Block → Block → Block × Block} (hgf : Undoes g f) {m : Memory}
    (hm : Memory.wf m) (n a : Nat) (prev : Block) : blockLoop g n a prev (blockLoop f n a prev m) = m := by
  have hm' := blockLoop_wf hm f n a prev
  refine Memory.eq_of_readByte (blockLoop_wf hm' g n a prev) hm fun b => ?_
  by_cases hb : b < a ∨ a + 16 * n ≤ b
  · rw [readByte_blockLoop_other hm' g n a prev hb, readByte_blockLoop_other hm f n a prev hb]
  · have hblock {k : Nat} (hk : k < n) : readBlock (blockLoop g n a prev (blockLoop f n a prev m)) (a + 16 * k) =
        readBlock m (a + 16 * k) := by
      rw [readBlock_blockLoop hm' g n a prev hk, chainValue_blockLoop hgf hm hk.le, readBlock_blockLoop hm f n a prev hk,
        hgf]
    have hsplit : b = a + 16 * ((b - a) / 16) + (b - a) % 16 := by omega
    rw [hsplit]
    exact readByte_of_readBlock_eq (hblock (by omega)) (Nat.mod_lt _ (by decide))

/-- After a block buffer command, another one can follow: the buffer is as good, and the schedule as it was. -/
theorem blockBufferReady_of_sameUnits {s u : State} {f : Block → Block → Block × Block} (hs : BlockBufferReady s)
    (hu : SameUnitsAndOperands (bufferDone f s) u) : BlockBufferReady u ∧ u.eng.rks = s.eng.rks ∧
      u.eng.keyValid = s.eng.keyValid ∧ u.eng.invValid = s.eng.invValid := by
  obtain ⟨hmem, haw, hrefused, haes, -, hrks, hkey, hinv, -, -, haddr, hlen, -, -⟩ := hu
  obtain ⟨hwf, hs⟩ := hs
  refine ⟨⟨?_, ?_⟩, hrks, hkey, hinv⟩
  · rw [hmem]
    exact blockLoop_wf hwf _ _ _ _
  · simp only [PortOpen, Latch.buffer, haes, hlen, haddr, haw, hrefused]
    exact hs

/-- A command that follows a block buffer command restores memory when it completes with a loop that undoes the first. -/
theorem restores_memory {s : State} {i : Instr} {f : Block → Block → Block × Block} (hs : BlockBufferReady s)
    (hnext : ∀ u, BlockBufferReady u → u.eng.rks = s.eng.rks → u.eng.keyValid = s.eng.keyValid →
      u.eng.invValid = s.eng.invValid → ∃ g, exec i u = .next (bufferDone g u) ∧ Undoes g f)
    (u : State) (hu : SameUnitsAndOperands (bufferDone f s) u) :
    ∃ v, exec i u = .next v ∧ ∀ a, readByte v.mem a = readByte s.mem a := by
  obtain ⟨hready, hrks, hkey, hinv⟩ := blockBufferReady_of_sameUnits hs hu
  obtain ⟨g, hexec, hgf⟩ := hnext u hready hrks hkey hinv
  obtain ⟨hmem, -, -, -, -, -, -, -, -, -, haddr, hlen, -, -⟩ := hu
  have hrestored : bufferResult g u = s.mem := by
    rw [bufferResult, hmem, haddr, hlen]
    exact blockLoop_blockLoop hgf hs.1 _ _ _
  exact ⟨_, hexec, fun a => by rw [bufferDone_mem, hrestored]⟩

/-! ## The cipher with the schedules of an instance (R118) -/

/-- The rounds of decryption read the inverse keys 0 to 8 only. -/
theorem decRounds_congr {ik ik' : Nat → Block} (h : ∀ m, m ≤ 8 → ik m = ik' m) (b : Block) (rk : Nat → Block)
    {n : Nat} (hn : n ≤ 9) : decRounds b rk ik n = decRounds b rk ik' n := by
  induction n with
  | zero => rfl
  | succ n ih => rw [decRounds, decRounds, ih (by omega), h n (by omega)]

/-- Encryption depends on the instance through its schedule only. -/
theorem Engine.encrypt_congr {e d : Engine} (h : d.rks = e.rks) : d.encrypt = e.encrypt := by
  unfold Engine.encrypt Engine.fwdKey Engine.slot
  rw [h]

/-- Decryption depends on the instance through its schedule only. -/
theorem Engine.decrypt_congr {e d : Engine} (h : d.rks = e.rks) : d.decrypt = e.decrypt := by
  unfold Engine.decrypt Engine.fwdKey Engine.invKey Engine.slot
  rw [h]

/-- With a valid inverse schedule, decryption inverts encryption. -/
theorem Engine.decrypt_encrypt {e : Engine} (he : e.ScheduleValid) (hinv : e.invValid = true) (b : Block) :
    e.decrypt (e.encrypt b) = b := by
  obtain ⟨-, -, hslots⟩ := he
  have hik : ∀ m, m ≤ 8 → e.invKey m = equivKeys e.fwdKey m := hslots hinv
  rw [Engine.decrypt, decryptBlock, decRounds_congr hik _ _ le_rfl]
  exact decryptBlock_encryptBlock b e.fwdKey

/-- No two Blocks have the same encryption. -/
theorem encryptBlock_injective (rk : Nat → Block) : Function.Injective fun b => encryptBlock b rk :=
  Function.LeftInverse.injective (g := fun c => decryptBlock c rk (equivKeys rk))
    fun b => decryptBlock_encryptBlock b rk

/-! ## The round trips -/

theorem ecbDecBlock_undoes {e d : Engine} (h : ∀ b, d.decrypt (e.encrypt b) = b) :
    Undoes (ecbDecBlock d) (ecbEncBlock e) := fun prev x => by
  simp only [ecbDecBlock, ecbEncBlock, h]

theorem cbcDecBlock_undoes {e d : Engine} (h : ∀ b, d.decrypt (e.encrypt b) = b) :
    Undoes (cbcDecBlock d) (cbcEncBlock e) := fun prev x => by
  simp only [cbcDecBlock, cbcEncBlock, h, Block.xor_xor_self]

theorem xorDecBlock_undoes : Undoes xorDecBlock xorEncBlock := fun prev x => by
  simp only [xorDecBlock, xorEncBlock, Block.xor_xor_self]

theorem xorEncBlock_undoes : Undoes xorEncBlock xorDecBlock := fun prev x => by
  simp only [xorDecBlock, xorEncBlock, Block.xor_xor_self]

/-- Settles O39: decryption undoes encryption Block by Block, and ECB takes each Block on its own. -/
theorem ecbRoundTrip : Obligations.EcbRoundTrip := by
  unfold Obligations.EcbRoundTrip
  refine ⟨fun s hs hvalid hkey hinv => ?_, fun s u k hs hu hkey hkey' hrks hk hk' hblock => ?_⟩
  · refine ⟨_, exec_aesEcbEnc hs hkey, restores_memory hs fun u hu hrks hkey' hinv' => ?_⟩
    refine ⟨_, exec_aesEcbDec hu (hkey'.trans hkey) (hinv'.trans hinv), ecbDecBlock_undoes ?_⟩
    rw [Engine.decrypt_congr hrks]
    exact Engine.decrypt_encrypt hvalid hinv
  · refine ⟨_, _, exec_aesEcbEnc hs hkey, exec_aesEcbEnc hu hkey', ?_⟩
    rw [readBlock_bufferDone_of_each hu (g := u.eng.encrypt) (fun _ _ => rfl) hk',
      readBlock_bufferDone_of_each hs (g := s.eng.encrypt) (fun _ _ => rfl) hk, hblock, Engine.encrypt_congr hrks]

/-- Settles O40: both directions chain the ciphertext Block, so decryption undoes encryption. -/
theorem cbcRoundTrip : Obligations.CbcRoundTrip := by
  unfold Obligations.CbcRoundTrip
  intro s hs hvalid hkey hinv
  refine ⟨_, exec_aesCbcEnc hs hkey, restores_memory hs fun u hu hrks hkey' hinv' => ?_⟩
  refine ⟨_, exec_aesCbcDec hu (hkey'.trans hkey) (hinv'.trans hinv), cbcDecBlock_undoes ?_⟩
  rw [Engine.decrypt_congr hrks]
  exact Engine.decrypt_encrypt hvalid hinv

/-- Settles O41: each of the two undoes the other. -/
theorem xorChainRoundTrip : Obligations.XorChainRoundTrip := by
  unfold Obligations.XorChainRoundTrip
  intro s hs
  exact ⟨⟨_, exec_xorChainEnc hs,
      restores_memory hs fun _ hu _ _ _ => ⟨_, exec_xorChainDec hu, xorDecBlock_undoes⟩⟩,
    ⟨_, exec_xorChainDec hs,
      restores_memory hs fun _ hu _ _ _ => ⟨_, exec_xorChainEnc hu, xorEncBlock_undoes⟩⟩⟩

/-! ## Two equal Blocks (R152) -/

/-- Encrypting a Block XOR `c` gives the encryption of the Block exactly when `c` is zero. -/
theorem encryptBlock_xor_eq_iff (b c : Block) (rk : Nat → Block) :
    encryptBlock (b.xor c) rk = encryptBlock b rk ↔ c = Block.zero := by
  refine ⟨fun h => ?_, fun h => by rw [h, Block.xor_zero]⟩
  have hbc : b.xor c = b := encryptBlock_injective rk h
  calc c = (c.xor b).xor b := (Block.xor_xor_self c b).symm
    _ = b.xor b := by rw [Block.xor_comm c b, hbc]
    _ = Block.zero := Block.xor_self b

/-- Settles O42: the second CBC Block is the encryption of the same Block XOR the first ciphertext Block. -/
theorem cbcDiffusesEqualBlocks : Obligations.CbcDiffusesEqualBlocks := by
  unfold Obligations.CbcDiffusesEqualBlocks
  intro s hs _ hkey hlen hequal
  obtain ⟨⟨t, hecb, -, -, hecbBlocks⟩, -⟩ := ecbTransformsEachBlock s hs hkey
  obtain ⟨⟨u, hcbc, -, -, hcbcBlocks⟩, -⟩ := cbcChainsCiphertextBlocks s hs hkey
  have hecb0 := hecbBlocks 0 (by omega)
  have hecb1 := hecbBlocks 1 (by omega)
  have hcbc0 := hcbcBlocks 0 (by omega)
  have hcbc1 := hcbcBlocks 1 (by omega)
  simp only [Nat.mul_zero, Nat.add_zero, Nat.mul_one, if_true, one_ne_zero, if_false, Nat.sub_self, Block.xor_zero,
    hequal] at hecb0 hecb1 hcbc0 hcbc1
  refine ⟨t, u, hecb, hcbc, hecb1.trans hecb0.symm, ?_, hcbc0.trans⟩
  rw [hcbc1, hcbc0]
  exact encryptBlock_xor_eq_iff _ _ _

end Sys2Proof.Machine
end

section
/-! The stream cipher unit (42_stream_cipher.md R171 to R178). A command whose checks pass and whose accesses the platform
allows completes with its effect; the effect of STR_XFORM undoes itself from the same generator, and the image that
STR_SAVE writes holds the generator that STR_LOAD reads back. -/

namespace Sys2Proof.Machine

/-! ## Byte sequences in memory (00_scope.md R14) -/

/-- Sequences read from two places are equal when their bytes are. -/
theorem readBytes_congr {m m' : Memory} {a b n : Nat} (h : ∀ k, k < n → readByte m' (b + k) = readByte m (a + k)) :
    readBytes m' b n = readBytes m a n := by
  induction n generalizing a b with
  | zero => rfl
  | succ n ih =>
    have hhead : readByte m' b = readByte m a := h 0 n.succ_pos
    have htail : readBytes m' (b + 1) n = readBytes m (a + 1) n :=
      ih fun k hk => by simpa only [Nat.add_assoc, Nat.add_comm 1] using h (k + 1) (Nat.succ_lt_succ hk)
    rw [readBytes, readBytes, hhead, htail]

/-- The first bytes of a longer sequence. -/
theorem take_readBytes (m : Memory) (a : Nat) {k n : Nat} (h : k ≤ n) :
    (readBytes m a n).take k = readBytes m a k := by
  induction k generalizing a n with
  | zero => rfl
  | succ k ih =>
    obtain ⟨n, rfl⟩ : ∃ j, n = j + 1 := ⟨n - 1, by omega⟩
    rw [readBytes, readBytes, List.take_succ_cons, ih (a + 1) (by omega)]

/-- A sequence read where it was written. -/
theorem readBytes_writeBytes {m : Memory} (hm : Memory.wf m) (a : Nat) (vs : List Byte) :
    readBytes (writeBytes m a vs) a vs.length = vs := by
  induction vs generalizing m a with
  | nil => rfl
  | cons v vs ih =>
    have hw : Memory.wf (writeByte m a v) := writeByte_wf hm a v
    have hhead : readByte (writeBytes (writeByte m a v) (a + 1) vs) a = v := by
      rw [readByte_writeBytes_other hw (.inl a.lt_succ_self), readByte_writeByte hm, if_pos rfl]
    rw [List.length_cons, readBytes, writeBytes, hhead, ih hw]

/-! ## Images of the generator (R175, R176) -/

theorem getD_toList_eq_permGet (p : Vector Byte 256) (k : Byte) : p.toList.getD k.toNat 0x00#8 = permGet p k := by
  simp [permGet, List.getD_eq_getElem?_getD, k.isLt]

/-- Byte k of the image is `P[k]`. -/
theorem getD_generatorImage (g : Generator) (k : Byte) : (generatorImage g).getD k.toNat 0x00#8 = permGet g.p k := by
  rw [generatorImage, List.getD_append _ _ _ _ (by simp [k.isLt]), getD_toList_eq_permGet]

/-- The last two bytes of the image are PI and PJ. -/
theorem getD_generatorImage_indices (g : Generator) :
    (generatorImage g).getD 256 0x00#8 = g.pi ∧ (generatorImage g).getD 257 0x00#8 = g.pj := by
  simp [generatorImage]

theorem take_generatorImage (g : Generator) : (generatorImage g).take 256 = g.p.toList :=
  List.take_left' Vector.length_toList

/-- The generator of an image is the one that was saved. -/
theorem generatorOfImage_generatorImage (g : Generator) : generatorOfImage (generatorImage g) = g := by
  have htable : permOfBytes (generatorImage g) = g.p := by
    rw [← Vector.toList_inj, toList_permOfBytes (by simp), take_generatorImage]
  obtain ⟨hpi, hpj⟩ := getD_generatorImage_indices g
  rw [generatorOfImage, htable, hpi, hpj]

/-- `P[k]` after loading is byte k of the image. -/
theorem permGet_permOfBytes (l : List Byte) (k : Byte) :
    permGet (permOfBytes l) k = l.getD k.toNat 0x00#8 := by
  simp [permGet, permOfBytes]

/-! ## STR_XFORM's loop undoes itself (R174) -/

/-- The loop from the same generator over its own result gives memory back: each byte meets its keystream byte twice. -/
theorem xformLoop_xformLoop {m : Memory} (hm : Memory.wf m) (n a : Nat) (g : Generator) :
    xformLoop n a g (xformLoop n a g m) = m := by
  have hm' := xformLoop_wf hm n a g
  refine Memory.eq_of_readByte (xformLoop_wf hm' n a g) hm fun b => ?_
  by_cases hb : b < a ∨ a + n ≤ b
  · rw [readByte_xformLoop_other hm' n a g hb, readByte_xformLoop_other hm n a g hb]
  · obtain ⟨t, rfl⟩ : ∃ t, b = a + t := ⟨b - a, by omega⟩
    have ht : t < n := by omega
    rw [readByte_xformLoop hm' n a g ht, readByte_xformLoop hm n a g ht, BitVec.xor_assoc, BitVec.xor_self,
      BitVec.xor_zero]

/-! ## Completing a command (R202, R222) -/

/-- A command completes with its effect once its checks pass and the platform allows its accesses. -/
theorem exec_eq_finish_of_portOpen {i : Instr} {s t : State} (hport : PortOpen s (portAccesses i s.eng.latch))
    (hchecks : ∀ c ∈ checksOf i s, c = none) (heffect : effectOf i s s = .ok t) : exec i s = .next (finish t) := by
  rw [exec_eq_command]
  exact command_ok (firstError_eq_none.2 hchecks) hport heffect

/-- A command whose checks pass, but whose pseudocode ends with an error, completes with that error. -/
theorem exec_eq_raiseError_of_portOpen {i : Instr} {s : State} {c : ErrCode}
    (hport : PortOpen s (portAccesses i s.eng.latch)) (hchecks : ∀ c ∈ checksOf i s, c = none)
    (heffect : effectOf i s s = .error c) : exec i s = .next (raiseError c s) := by
  have hopen : regionsMeet (portAccesses i s.eng.latch) s.refusedMem = false := hport
  simp [exec_eq_command, command, firstError_eq_none.2 hchecks, hopen, heffect]

@[simp] theorem requireStream_eq_none {s : State} : requireStream s = none ↔ s.eng.streamValid = true := by
  simp [requireStream]

@[simp] theorem requireStreamKeyLen_eq_none {s : State} :
    requireStreamKeyLen s = none ↔ 1 ≤ s.eng.latch.klen.toNat ∧ s.eng.latch.klen.toNat ≤ 256 := by
  simp only [requireStreamKeyLen, ite_eq_right_iff, reduceCtorEq, imp_false]
  omega

theorem exec_strInit {s : State} (hmin : 1 ≤ s.eng.latch.klen.toNat) (hmax : s.eng.latch.klen.toNat ≤ 256)
    (hrange : s.eng.latch.kaddr.toNat + s.eng.latch.klen.toNat ≤ 2 ^ s.aw)
    (hport : PortOpen s [s.eng.latch.keyRegion]) :
    exec .strInit s = .next (finish (strInitEffect s)) := by
  refine exec_eq_finish_of_portOpen hport ?_ rfl
  simp [checksOf, requireRange, Latch.keyRegion, hmin, hmax, hrange]

theorem exec_strXform {s : State} (hvalid : s.eng.streamValid = true)
    (hrange : s.eng.latch.addr.toNat + s.eng.latch.len.toNat ≤ 2 ^ s.aw) (hport : PortOpen s [s.eng.latch.buffer]) :
    exec .strXform s = .next (finish (xformEffect s)) := by
  refine exec_eq_finish_of_portOpen hport ?_ rfl
  simp [checksOf, requireRange, Latch.buffer, hvalid, hrange]

/-- The state after STR_SAVE. -/
def imageSaved (s : State) : State :=
  finish (setMem (writeBytes s.mem s.eng.latch.addr.toNat (generatorImage s.eng.gen)) s)

@[simp] theorem imageSaved_mem (s : State) :
    (imageSaved s).mem = writeBytes s.mem s.eng.latch.addr.toNat (generatorImage s.eng.gen) := rfl

section Image
variable {s : State} (hrange : s.eng.latch.addr.toNat + 258 ≤ 2 ^ s.aw) (hport : PortOpen s [s.eng.latch.image])
include hrange hport

theorem exec_strSave (hvalid : s.eng.streamValid = true) : exec .strSave s = .next (imageSaved s) := by
  refine exec_eq_finish_of_portOpen hport ?_ rfl
  simp [checksOf, requireRange, Latch.image, hvalid, hrange]

/-- STR_LOAD of an image that holds a permutation (R176). -/
theorem exec_strLoad_of_permutation (hperm : ∀ v : Byte, (readBytes s.mem s.eng.latch.addr.toNat 256).count v = 1) :
    exec .strLoad s = .next (finish (setStreamValid (setGen
      (generatorOfImage (readBytes s.mem s.eng.latch.addr.toNat 258)) s))) := by
  refine exec_eq_finish_of_portOpen hport (by simp [checksOf, requireRange, Latch.image, hrange]) ?_
  simp only [effectOf, strLoadEffect]
  rw [take_readBytes _ _ (by decide), if_pos ((isPermutation_iff _).2 hperm)]

/-- STR_LOAD of any other image (R176, R231). -/
theorem exec_strLoad_of_not_permutation
    (hperm : ¬ ∀ v : Byte, (readBytes s.mem s.eng.latch.addr.toNat 256).count v = 1) :
    exec .strLoad s = .next (raiseError .badState s) := by
  refine exec_eq_raiseError_of_portOpen hport (by simp [checksOf, requireRange, Latch.image, hrange]) ?_
  simp only [effectOf, strLoadEffect]
  rw [take_readBytes _ _ (by decide), if_neg (mt (isPermutation_iff _).1 hperm)]

end Image

/-- Settles O43: the checks of STR_INIT are the hypotheses, and its effect is an equation. -/
theorem strInitKeysGenerator : Obligations.StrInitKeysGenerator := by
  unfold Obligations.StrInitKeysGenerator
  intro s hmin hmax hrange hport
  rw [exec_strInit hmin hmax hrange hport, strInitEffect_eq]
  simp only [finish, Engine.flagsAtFinish]

/-- Settles O44: what the loop of STR_XFORM does to a byte inside the buffer and to one outside. -/
theorem strXformXorsKeystream : Obligations.StrXformXorsKeystream := by
  unfold Obligations.StrXformXorsKeystream
  intro s hm hvalid hrange hport
  refine ⟨_, exec_strXform hvalid hrange hport, ?_⟩
  rw [xformEffect_eq]
  exact ⟨fun a ha => readByte_xformLoop_other hm _ _ _ ha, rfl, fun n hn => readByte_xformLoop hm _ _ _ hn⟩

/-- Settles O45: a byte of the image read after it is written. -/
theorem strSaveWritesImage : Obligations.StrSaveWritesImage := by
  unfold Obligations.StrSaveWritesImage
  intro s hm hvalid hrange hport
  have hbyte {k : Nat} (hk : k < 258) :
      readByte (imageSaved s).mem (s.eng.latch.addr.toNat + k) = (generatorImage s.eng.gen).getD k 0x00#8 := by
    rw [imageSaved_mem, readByte_writeBytes hm, length_generatorImage, if_pos (by omega), Nat.add_sub_cancel_left]
  obtain ⟨hpi, hpj⟩ := getD_generatorImage_indices s.eng.gen
  refine ⟨_, exec_strSave hrange hport hvalid, rfl, fun k => ?_, ?_, ?_, fun a ha => ?_⟩
  · rw [hbyte (k.isLt.trans (by decide)), getD_generatorImage]
  · rw [hbyte (by decide), hpi]
  · rw [hbyte (by decide), hpj]
  · exact readByte_writeBytes_other hm (by rwa [length_generatorImage])

/-- Settles O46: the two outcomes of the image check. -/
theorem strLoadRestoresOrRejects : Obligations.StrLoadRestoresOrRejects := by
  unfold Obligations.StrLoadRestoresOrRejects
  intro s hrange hport
  refine ⟨fun hperm => ⟨_, exec_strLoad_of_permutation hrange hport hperm, fun k => ?_, ?_, ?_, rfl⟩,
    fun hother => exec_strLoad_of_not_permutation hrange hport (not_forall.2 hother)⟩
  · exact (permGet_permOfBytes _ k).trans (getD_readBytes _ _ 258 _ 0x00#8 (k.isLt.trans (by decide)))
  · exact getD_readBytes _ _ 258 256 0x00#8 (by decide)
  · exact getD_readBytes _ _ 258 257 0x00#8 (by decide)

/-! ## Keying and transforming, twice (R177) -/

/-- `u` agrees with `s` in what the checks and the accesses of STR_INIT and STR_XFORM depend on, but for memory and
STREAM_VALID (R66, R222). -/
structure SameStreamOperands (s u : State) : Prop where
  aw : u.aw = s.aw
  refusedMem : u.refusedMem = s.refusedMem
  addr : u.eng.latch.addr = s.eng.latch.addr
  len : u.eng.latch.len = s.eng.latch.len
  kaddr : u.eng.latch.kaddr = s.eng.latch.kaddr
  klen : u.eng.latch.klen = s.eng.latch.klen

theorem SameStreamOperands.trans {s t u : State} (h : SameStreamOperands s t) (h' : SameStreamOperands t u) :
    SameStreamOperands s u :=
  ⟨h'.aw.trans h.aw, h'.refusedMem.trans h.refusedMem, h'.addr.trans h.addr, h'.len.trans h.len,
    h'.kaddr.trans h.kaddr, h'.klen.trans h.klen⟩

theorem sameStreamOperands_of_sameUnits {s u : State} (h : SameUnitsAndOperands s u) : SameStreamOperands s u := by
  obtain ⟨-, haw, hrefused, -, -, -, -, -, -, -, haddr, hlen, hkaddr, hklen⟩ := h
  exact ⟨haw, hrefused, haddr, hlen, hkaddr, hklen⟩

theorem sameStreamOperands_strInit (s : State) : SameStreamOperands s (finish (strInitEffect s)) := by
  rw [strInitEffect_eq]
  exact ⟨rfl, rfl, rfl, rfl, rfl, rfl⟩

theorem sameStreamOperands_strXform (s : State) : SameStreamOperands s (finish (xformEffect s)) := by
  rw [xformEffect_eq]
  exact ⟨rfl, rfl, rfl, rfl, rfl, rfl⟩

/-- Good operands for STR_INIT and then STR_XFORM. -/
def StreamReady (s : State) : Prop :=
  Memory.wf s.mem ∧ (1 ≤ s.eng.latch.klen.toNat ∧ s.eng.latch.klen.toNat ≤ 256) ∧
    s.eng.latch.kaddr.toNat + s.eng.latch.klen.toNat ≤ 2 ^ s.aw ∧
    s.eng.latch.addr.toNat + s.eng.latch.len.toNat ≤ 2 ^ s.aw ∧
    PortOpen s [s.eng.latch.buffer] ∧ PortOpen s [s.eng.latch.keyRegion]

/-- The key bytes STR_INIT reads (R173). -/
def latchedKey (s : State) : List Byte := readBytes s.mem s.eng.latch.kaddr.toNat s.eng.latch.klen.toNat

/-- Memory after STR_XFORM from the generator keyed with `key` (R173, R174). -/
def transformedMem (key : List Byte) (s : State) : Memory :=
  xformLoop s.eng.latch.len.toNat s.eng.latch.addr.toNat (ksa key) s.mem

/-- Good operands stay good while memory stays canonical. -/
theorem StreamReady.congr {s u : State} (hs : StreamReady s) (h : SameStreamOperands s u) (hm : Memory.wf u.mem) :
    StreamReady u := by
  obtain ⟨-, hs⟩ := hs
  refine ⟨hm, ?_⟩
  simp only [PortOpen, Latch.buffer, Latch.keyRegion, h.aw, h.refusedMem, h.addr, h.len, h.kaddr, h.klen]
  exact hs

/-- STR_INIT, and STR_XFORM from every state related to the one it left, transform memory with the latched key. -/
theorem exec_strInit_strXform {s : State} (hs : StreamReady s) :
    ∃ t, exec .strInit s = .next t ∧ ∀ t', SameUnitsAndOperands t t' → ∃ u, exec .strXform t' = .next u ∧
      u.mem = transformedMem (latchedKey s) s ∧ SameStreamOperands s u := by
  have hready := hs
  obtain ⟨hm, ⟨hmin, hmax⟩, hkey, -, -, hportKey⟩ := hs
  refine ⟨_, exec_strInit hmin hmax hkey hportKey, fun t' ht => ?_⟩
  have hsame : SameStreamOperands s t' := (sameStreamOperands_strInit s).trans (sameStreamOperands_of_sameUnits ht)
  rw [strInitEffect_eq] at ht
  obtain ⟨hmem, -, -, -, -, -, -, -, hgen, hvalid, -⟩ := ht
  obtain ⟨-, -, -, hbuffer, hport, -⟩ := hready.congr hsame (hmem ▸ hm)
  refine ⟨_, exec_strXform hvalid hbuffer hport, ?_, hsame.trans (sameStreamOperands_strXform t')⟩
  rw [xformEffect_eq, transformedMem, latchedKey, ← hsame.addr, ← hsame.len]
  exact congrArg₂ (xformLoop _ _) hgen hmem

/-- Transforming again with the same key gives memory back. -/
theorem transformedMem_transformedMem {s u : State} {key : List Byte} (hm : Memory.wf s.mem)
    (h : SameStreamOperands s u) (hu : u.mem = transformedMem key s) : transformedMem key u = s.mem := by
  rw [transformedMem, h.addr, h.len, hu]
  exact xformLoop_xformLoop hm _ _ _

theorem portOpen_pair {s : State} {r t : Region} : PortOpen s [r, t] ↔ PortOpen s [r] ∧ PortOpen s [t] := by
  simp [PortOpen, regionsMeet]

/-- An address in one of two regions that do not meet is not in the other. -/
theorem Region.contains_eq_false_of_not_meets {r t : Region} {a : Nat} (h : r.meets t = false)
    (ha : t.contains a = true) : r.contains a = false :=
  Bool.eq_false_iff.2 fun hr => Bool.eq_false_iff.1 h ((Region.meets_iff r t).2 ⟨a, hr, ha⟩)

/-- A key outside the buffer is the same after the buffer is transformed. -/
theorem readBytes_transformedMem_key {s : State} (hm : Memory.wf s.mem)
    (h : s.eng.latch.buffer.meets s.eng.latch.keyRegion = false) (key : List Byte) :
    readBytes (transformedMem key s) s.eng.latch.kaddr.toNat s.eng.latch.klen.toNat = latchedKey s := by
  refine readBytes_congr fun k hk => readByte_xformLoop_other hm _ _ _ ?_
  have hkey : s.eng.latch.keyRegion.contains (s.eng.latch.kaddr.toNat + k) = true :=
    (Region.contains_iff _ _).2 ⟨Nat.le_add_right _ _, Nat.add_lt_add_left hk _⟩
  exact (Region.contains_eq_false_iff _ _).1 (Region.contains_eq_false_of_not_meets h hkey)

/-- Settles O47: both passes XOR the buffer with the keystream of the same key. -/
theorem streamCipherIsSelfInverse : Obligations.StreamCipherIsSelfInverse := by
  unfold Obligations.StreamCipherIsSelfInverse
  intro s hm hmin hmax hkey hbuffer hport
  obtain ⟨hportBuffer, hportKey⟩ := portOpen_pair.1 hport
  have hs : StreamReady s := ⟨hm, ⟨hmin, hmax⟩, hkey, hbuffer, hportBuffer, hportKey⟩
  obtain ⟨t, ht, hfirst⟩ := exec_strInit_strXform hs
  refine ⟨t, ht, fun t' ht' => ?_⟩
  obtain ⟨u, hu, humem, hsame⟩ := hfirst t' ht'
  refine ⟨u, hu, fun hapart => humem ▸ readBytes_transformedMem_key hm hapart _, fun u' hu' hkeys => ?_⟩
  have humem' : u'.mem = transformedMem (latchedKey s) s := hu'.1.trans humem
  have hsame' : SameStreamOperands s u' := hsame.trans (sameStreamOperands_of_sameUnits hu')
  have hkey' : latchedKey u' = latchedKey s := by rw [latchedKey, hsame'.kaddr, hsame'.klen]; exact hkeys
  obtain ⟨v, hv, hsecond⟩ := exec_strInit_strXform (hs.congr hsame' (humem' ▸ xformLoop_wf hm _ _ _))
  refine ⟨v, hv, fun v' hv' => ?_⟩
  obtain ⟨w, hw, hwmem, -⟩ := hsecond v' hv'
  refine ⟨w, hw, fun a => ?_⟩
  rw [hwmem, hkey', transformedMem_transformedMem hm hsame' humem']

/-! ## Equal keys and loaded forks (R178) -/

/-- STR_INIT that sets DONE has keyed the generator: an error completion leaves DONE. -/
theorem gen_of_exec_strInit {s t : State} (h : exec .strInit s = .next t) (hs : s.eng.done = false)
    (ht : t.eng.done = true) : t.eng.gen = ksa (latchedKey s) := by
  rcases exec_cases h with ⟨c, -, rfl⟩ | ⟨-, u, hu, rfl⟩
  · exact absurd (hs.symm.trans ht) (by decide)
  · cases hu
    rw [strInitEffect_eq]
    rfl

/-- Settles O48: the generator is a function of the key bytes, and the image loaded is the one of the generator saved. -/
theorem equalKeysAndForksGiveEqualGenerators : Obligations.EqualKeysAndForksGiveEqualGenerators := by
  unfold Obligations.EqualKeysAndForksGiveEqualGenerators
  refine ⟨fun s u t v hs hu ht hv hs' hu' hkey => ?_,
    fun s t u hm hperm hvalid hrange hport hsave hrange' hport' hfork => ?_⟩
  · rw [gen_of_exec_strInit hu hu' hv, gen_of_exec_strInit hs hs' ht, latchedKey, hkey, latchedKey]
  · have hsaved : t = imageSaved s := by
      cases hsave.symm.trans (exec_strSave hrange hport hvalid)
      rfl
    have himage : readBytes u.mem u.eng.latch.addr.toNat 258 = generatorImage s.eng.gen := by
      rw [readBytes_congr hfork, hsaved, imageSaved_mem]
      simpa only [length_generatorImage] using readBytes_writeBytes hm s.eng.latch.addr.toNat (generatorImage s.eng.gen)
    have htable : readBytes u.mem u.eng.latch.addr.toNat 256 = s.eng.gen.p.toList := by
      rw [← take_readBytes u.mem _ (show 256 ≤ 258 by decide), himage, take_generatorImage]
    refine ⟨_, exec_strLoad_of_permutation hrange' hport' (by rw [htable]; exact hperm hvalid), ?_, rfl⟩
    rw [himage, generatorOfImage_generatorImage]
    rfl

end Sys2Proof.Machine
end

section
/-! The chain cipher unit (43_chain_cipher.md R190 to R195). What each loop does to a byte is one equation, in terms of the
ciphertext byte before it: the byte written by CHN_ENC, the byte read by CHN_DEC. The round trip and the spread of a
difference both follow from these equations. -/

namespace Sys2Proof.Machine

/-! ## The bytes after the loops (R191, R192) -/

/-- What is fed back into byte n when `c` holds the ciphertext: the byte before it, and `fb` into the first (R191, R192). -/
def ciphertextBefore (fb : Byte) (c : Memory) (addr n : Nat) : Byte :=
  if n = 0 then fb else readByte c (addr + (n - 1))

@[simp] theorem ciphertextBefore_zero (fb : Byte) (c : Memory) (addr : Nat) : ciphertextBefore fb c addr 0 = fb := rfl

@[simp] theorem ciphertextBefore_succ (fb : Byte) (c : Memory) (addr n : Nat) :
    ciphertextBefore fb c addr (n + 1) = readByte c (addr + n) := rfl

/-- XORing twice with the same key byte and the same feedback gives the byte back. -/
theorem xor_keyAndFeedback_twice (x key fb : Byte) : x ^^^ key ^^^ fb ^^^ key ^^^ fb = x := by
  calc x ^^^ key ^^^ fb ^^^ key ^^^ fb = x ^^^ ((key ^^^ fb) ^^^ (key ^^^ fb)) := by ac_rfl
    _ = x := by rw [BitVec.xor_self, BitVec.xor_zero]

section Loops
variable {m : Memory} (hm : Memory.wf m) {addr kaddr klen k : Nat} (hklen : klen ≠ 0)
  (hapart : k = 0 ∨ kaddr + klen ≤ addr ∨ addr + k ≤ kaddr) (fb : Byte)
include hm hklen hapart

/-- Byte n after a CCU loop from index 0. -/
theorem readByte_chainLoop_start (next : Byte → Byte → Byte) {n : Nat} (hn : n < k) :
    readByte (chainLoop next addr kaddr klen k 0 fb m) (addr + n) =
      readByte m (addr + n) ^^^ readByte m (kaddr + n % klen) ^^^ chainFeedback next m addr kaddr klen 0 fb n := by
  simpa using readByte_chainLoop hm next (Nat.pos_of_ne_zero hklen) k 0 fb (by omega) hn

/-- Byte n after CHN_ENC's loop: the byte written before it is fed back. -/
theorem readByte_chainLoop_written {n : Nat} (hn : n < k) :
    readByte (chainLoop feedbackWritten addr kaddr klen k 0 fb m) (addr + n) =
      readByte m (addr + n) ^^^ readByte m (kaddr + n % klen) ^^^
        ciphertextBefore fb (chainLoop feedbackWritten addr kaddr klen k 0 fb m) addr n := by
  rw [readByte_chainLoop_start hm hklen hapart fb _ hn]
  cases n with
  | zero => rfl
  | succ n =>
    rw [ciphertextBefore_succ, readByte_chainLoop_start hm hklen hapart fb _ (by omega)]
    simp only [chainFeedback, feedbackWritten, Nat.add_zero, Nat.zero_add]

/-- Byte n after CHN_DEC's loop: the byte read before it is fed back. -/
theorem readByte_chainLoop_read {n : Nat} (hn : n < k) :
    readByte (chainLoop feedbackRead addr kaddr klen k 0 fb m) (addr + n) =
      readByte m (addr + n) ^^^ readByte m (kaddr + n % klen) ^^^ ciphertextBefore fb m addr n := by
  rw [readByte_chainLoop_start hm hklen hapart fb _ hn]
  cases n <;> rfl

/-- CHN_DEC's loop undoes CHN_ENC's: it meets the same key byte and feeds back the same ciphertext byte (R193). -/
theorem chainLoop_read_chainLoop_written :
    chainLoop feedbackRead addr kaddr klen k 0 fb (chainLoop feedbackWritten addr kaddr klen k 0 fb m) = m := by
  have hm' := chainLoop_wf hm feedbackWritten addr kaddr klen k 0 fb
  refine Memory.eq_of_readByte (chainLoop_wf hm' _ _ _ _ _ _ _) hm fun b => ?_
  by_cases hb : b < addr ∨ addr + k ≤ b
  · rw [readByte_chainLoop_other hm' _ _ _ _ _ _ _ hb, readByte_chainLoop_other hm _ _ _ _ _ _ _ hb]
  · obtain ⟨n, rfl⟩ : ∃ n, b = addr + n := ⟨b - addr, by omega⟩
    have hn : n < k := by omega
    have hkey : readByte (chainLoop feedbackWritten addr kaddr klen k 0 fb m) (kaddr + n % klen) =
        readByte m (kaddr + n % klen) := by
      have := Nat.mod_lt n (Nat.pos_of_ne_zero hklen)
      exact readByte_chainLoop_other hm _ _ _ _ _ _ _ (by omega)
    rw [readByte_chainLoop_read hm' hklen hapart fb hn, hkey, readByte_chainLoop_written hm hklen hapart fb hn]
    exact xor_keyAndFeedback_twice _ _ _

end Loops

/-! ## Completing a CCU command (R190, R222) -/

/-- The state after a CCU command with the feedback `next`. -/
def chainDone (next : Byte → Byte → Byte) (s : State) : State := finish (setMem (chainResult next s) s)

@[simp] theorem chainDone_mem (next : Byte → Byte → Byte) (s : State) : (chainDone next s).mem = chainResult next s := rfl

@[simp] theorem requireChainKeyLen_eq_none {s : State} : requireChainKeyLen s = none ↔ s.eng.latch.klen.toNat ≠ 0 := by
  simp [requireChainKeyLen]

@[simp] theorem requireDisjoint_eq_none {s : State} : requireDisjoint s = none ↔
    s.eng.latch.len.toNat = 0 ∨ s.eng.latch.kaddr.toNat + s.eng.latch.klen.toNat ≤ s.eng.latch.addr.toNat ∨
      s.eng.latch.addr.toNat + s.eng.latch.len.toNat ≤ s.eng.latch.kaddr.toNat := by
  simp only [requireDisjoint, ite_eq_right_iff, reduceCtorEq, imp_false]
  omega

section Completion
variable {s : State} (hs : ChainReady s)
include hs

/-- With good operands a CCU command completes with its loop. -/
theorem chainCommand_eq_next (next : Byte → Byte → Byte) : chainCommand s next = .next (chainDone next s) := by
  obtain ⟨-, hklen, hbuffer, hkey, hapart, hport⟩ := hs
  refine command_ok (firstError_eq_none.2 ?_) hport rfl
  simp [requireRange, Latch.buffer, Latch.keyRegion, hklen, hbuffer, hkey, hapart]

theorem exec_chnEnc : exec .chnEnc s = .next (chainDone feedbackWritten s) := chainCommand_eq_next hs _

theorem exec_chnDec : exec .chnDec s = .next (chainDone feedbackRead s) := chainCommand_eq_next hs _

/-- A CCU command leaves every byte outside its buffer. -/
theorem chainDone_outsideBufferUnchanged (next : Byte → Byte → Byte) : OutsideBufferUnchanged s (chainDone next s) :=
  fun _ ha => readByte_chainResult_other hs.1 next ((Region.contains_eq_false_iff _ _).2 ha)

/-- Byte n after CHN_ENC (R191). -/
theorem readByte_chainDone_written {n : Nat} (hn : n < s.eng.latch.len.toNat) :
    readByte (chainDone feedbackWritten s).mem (s.eng.latch.addr.toNat + n) =
      readByte s.mem (s.eng.latch.addr.toNat + n) ^^^
        readByte s.mem (s.eng.latch.kaddr.toNat + n % s.eng.latch.klen.toNat) ^^^
        ciphertextBefore s.eng.chainFbInit (chainDone feedbackWritten s).mem s.eng.latch.addr.toNat n := by
  obtain ⟨hm, hklen, -, -, hapart, -⟩ := hs
  exact readByte_chainLoop_written hm hklen hapart _ hn

/-- Byte n after CHN_DEC (R192). -/
theorem readByte_chainDone_read {n : Nat} (hn : n < s.eng.latch.len.toNat) :
    readByte (chainDone feedbackRead s).mem (s.eng.latch.addr.toNat + n) =
      readByte s.mem (s.eng.latch.addr.toNat + n) ^^^
        readByte s.mem (s.eng.latch.kaddr.toNat + n % s.eng.latch.klen.toNat) ^^^
        ciphertextBefore s.eng.chainFbInit s.mem s.eng.latch.addr.toNat n := by
  obtain ⟨hm, hklen, -, -, hapart, -⟩ := hs
  exact readByte_chainLoop_read hm hklen hapart _ hn

end Completion

/-- Settles O49: the equations of the two loops for a byte of the buffer, and what they leave. -/
theorem chainCommandsFeedBackCiphertext : Obligations.ChainCommandsFeedBackCiphertext := by
  unfold Obligations.ChainCommandsFeedBackCiphertext
  intro s hs
  exact ⟨⟨_, exec_chnEnc hs, rfl, chainDone_outsideBufferUnchanged hs _, fun _ => readByte_chainDone_written hs⟩,
    ⟨_, exec_chnDec hs, rfl, chainDone_outsideBufferUnchanged hs _, fun _ => readByte_chainDone_read hs⟩⟩

/-! ## CHN_DEC after CHN_ENC (R193) -/

/-- After a CCU command, another one can follow: the operands are as good. -/
theorem chainReady_of_sameUnits {s u : State} {next : Byte → Byte → Byte} (hs : ChainReady s)
    (hu : SameUnitsAndOperands (chainDone next s) u) : ChainReady u := by
  obtain ⟨hmem, haw, hrefused, -, -, -, -, -, -, -, haddr, hlen, hkaddr, hklen⟩ := hu
  obtain ⟨hm, hs⟩ := hs
  refine ⟨?_, ?_⟩
  · rw [hmem]
    exact chainLoop_wf hm _ _ _ _ _ _ _
  · simp only [PortOpen, Latch.buffer, chainKeyAccessed, haddr, hlen, hkaddr, hklen, haw, hrefused]
    exact hs

/-- Settles O50: the second loop starts from the same operands and feedback, and undoes the first. -/
theorem chainRoundTrip : Obligations.ChainRoundTrip := by
  unfold Obligations.ChainRoundTrip
  intro s hs
  refine ⟨_, exec_chnEnc hs, fun u hu => ⟨_, exec_chnDec (chainReady_of_sameUnits hs hu), fun a => ?_⟩⟩
  obtain ⟨hmem, -, -, -, hfb, -, -, -, -, -, haddr, hlen, hkaddr, hklen⟩ := hu
  obtain ⟨hm, hnonempty, -, -, hapart, -⟩ := hs
  have hrestored : chainResult feedbackRead u = s.mem := by
    rw [chainResult, hmem, hfb, haddr, hlen, hkaddr, hklen]
    exact chainLoop_read_chainLoop_written hm hnonempty hapart _
  rw [chainDone_mem, hrestored]

/-! ## The spread of a difference (R194) -/

/-- A difference in byte m of the plaintext, and one fed back once byte m has been written, never meet in one byte. -/
theorem difference_xor_fedBack (m n : Nat) (d : Byte) :
    ((if n = m then d else 0x00#8) ^^^ (if m < n then d else 0x00#8)) = if m ≤ n then d else 0x00#8 := by
  rcases Nat.lt_trichotomy n m with h | rfl | h
  · rw [if_neg (by omega), if_neg (by omega), if_neg (by omega), BitVec.xor_zero]
  · simp
  · rw [if_neg (by omega), if_pos h, if_pos h.le, BitVec.zero_xor]

/-- Settles O51, by induction on n: the difference fed back into byte n is that of the ciphertext byte before it. -/
theorem chainDifferencePropagates : Obligations.ChainDifferencePropagates := by
  unfold Obligations.ChainDifferencePropagates
  intro s u m d hs hu hlatch hfb _ hkey hplain
  have hklen : 0 < s.eng.latch.klen.toNat := Nat.pos_of_ne_zero hs.2.1
  -- A byte's difference is that of the plaintext byte plus the one fed back; the key bytes are the same.
  have hbyte {n : Nat} (hn : n < s.eng.latch.len.toNat)
      (hback : ciphertextBefore s.eng.chainFbInit (chainDone feedbackWritten u).mem s.eng.latch.addr.toNat n =
        ciphertextBefore s.eng.chainFbInit (chainDone feedbackWritten s).mem s.eng.latch.addr.toNat n ^^^
          (if m < n then d else 0x00#8)) :
      readByte (chainDone feedbackWritten u).mem (s.eng.latch.addr.toNat + n) =
        readByte (chainDone feedbackWritten s).mem (s.eng.latch.addr.toNat + n) ^^^ (if m ≤ n then d else 0x00#8) := by
    have hu' := readByte_chainDone_written hu (n := n) (by rwa [hlatch])
    rw [hlatch, hfb, hplain n hn, hkey _ (Nat.mod_lt _ hklen), hback] at hu'
    rw [hu', readByte_chainDone_written hs hn, ← difference_xor_fedBack]
    ac_rfl
  refine ⟨_, _, exec_chnEnc hs, exec_chnEnc hu, fun n hn => ?_⟩
  induction n with
  | zero => exact hbyte hn (by simp)
  | succ n ih => exact hbyte hn (by simpa only [ciphertextBefore_succ, Nat.lt_succ_iff] using ih (by omega))

end Sys2Proof.Machine
end

section
/-! Launch, completion and register reads (44_control.md R200 to R206): which agent's step each is, and what it leaves
behind. -/

namespace Sys2Proof.Machine

/-! ## A completion reports one outcome (R202, R233) -/

/-- An error completion raises irq exactly when it is enabled. -/
@[simp] theorem Engine.irq_flagsAtError (e : Engine) (c : ErrCode) : (e.flagsAtError c).irq = e.ie := by
  simp [Engine.irq]

/-- A completion without error raises irq exactly when it is enabled. -/
@[simp] theorem Engine.irq_flagsAtFinish (e : Engine) : e.flagsAtFinish.irq = e.ie := by
  simp [Engine.irq]

/-- Settles O23: an error completion sets ERR and leaves DONE, any other sets DONE and leaves ERR, which its effect does
not write. -/
theorem everyCompletionReportsOneOutcome : Obligations.EveryCompletionReportsOneOutcome := by
  unfold Obligations.EveryCompletionReportsOneOutcome
  intro i s t hdone herr h
  rcases exec_cases h with ⟨c, -, rfl⟩ | ⟨-, u, hu, rfl⟩
  · exact ⟨rfl, by simp [hdone], s.eng.irq_flagsAtError c⟩
  · have hframe := effectOf_frame hu
    have huerr : u.eng.err = false := by rw [hframe]; exact herr
    have hie : u.eng.ie = s.eng.ie := by rw [hframe]
    exact ⟨rfl, by simp [huerr], u.eng.irq_flagsAtFinish.trans hie⟩

/-! ## The completion step of any instance (R202, R205, R243) -/

/-- A completion of a busy instance whose latch holds a command is the meaning of that command. -/
theorem completion_of_command {run : Instr → State → Result} {s : State} {i : Instr} (hb : s.eng.busy = true)
    (hi : s.eng.latch.command = .ok i) : completion run s = run i s := by
  simp [completion, hb, hi]

/-- A completion of a busy instance whose latch holds an illegal word reports ILLEGAL_CMD. -/
theorem completion_of_illegal {run : Instr → State → Result} {s : State} {d : DecodeError} (hb : s.eng.busy = true)
    (hd : s.eng.latch.command = .error d) : completion run s = .next (raiseError .illegalCmd s) := by
  simp [completion, hb, hd]

/-- The completion step of instance k happens at the state with instance k in focus. -/
theorem step_eq_completion {s u : State} {k : Nat} {rest : List Event} (he : s.events = .complete k :: rest)
    (hu : InFocus { s with events := rest } u k) : step s = completion exec u := by
  rw [step_of_events he]
  simp only [runEvent, completeNumber, State.focus_of_inFocus hu]

/-- Settles O5: the step is the completion at instance k, which the decoded latch decides. -/
theorem stepRunsLatchedCommand : Obligations.StepRunsLatchedCommand := by
  unfold Obligations.StepRunsLatchedCommand
  intro s u k rest he hu hb
  have hstep := step_eq_completion he hu
  exact ⟨fun i hi => hstep.trans (completion_of_command hb hi),
    fun d hd => hstep.trans (completion_of_illegal hb hd)⟩

/-- A 32-bit word placed as a number is that word (log 11). -/
theorem State.withFetchWord_toNat (s : State) (w : Word) : s.withFetchWord 32 w.toNat = armCommand w s := by
  rw [State.withFetchWord, Nat.mod_eq_of_lt w.isLt, BitVec.ofNat_toNat, BitVec.setWidth_eq]

/-- Settles O6: the event placed is the completion of the instance in focus, whose latch holds the fields of the word. -/
theorem fetchWordRunsNext : Obligations.FetchWordRunsNext := by
  unfold Obligations.FetchWordRunsNext
  intro s w i hi
  rw [s.withFetchWord_toNat]
  exact step_complete (s := armCommand w s) rfl rfl hi

/-! ## A write to CMD (R200, R201, R203) -/

/-- While BUSY = 0 a CMD write is a launch. -/
theorem hostWrite_cmd_of_idle {s : State} (hb : s.eng.busy = false) (w : Word) : hostWrite .cmd w s = launch w s := by
  simp [hostWrite, writeCmd, hb]

/-- While BUSY = 1 a CMD write sets OVR. -/
theorem hostWrite_cmd_of_busy {s : State} (hb : s.eng.busy = true) (w : Word) :
    hostWrite .cmd w s = .next { s with eng := s.eng.setOverrun } := by
  simp [hostWrite, writeCmd, hb]

/-- A launch goes on when its footprint lies in ordinary memory and meets none in flight at another instance. -/
theorem launch_eq_next {s : State} {w : Word}
    (hdevice : regionsMeet (launchEngine s.eng w).latch.footprint s.deviceMem = false)
    (hothers : regionsMeet (launchEngine s.eng w).latch.footprint s.otherFootprints = false) :
    launch w s = .next { s with eng := launchEngine s.eng w } := by
  simp only [launch, hdevice, hothers, Bool.false_eq_true, if_false]

/-- Settles O9: a CMD write to an idle instance is a launch, and neither stop of a launch applies. -/
theorem launchCapturesEveryOperand : Obligations.LaunchCapturesEveryOperand := by
  unfold Obligations.LaunchCapturesEveryOperand
  intro s w hb hdevice hothers
  exact (hostWrite_cmd_of_idle hb w).trans (launch_eq_next hdevice hothers)

/-- Settles O11: the busy branch of a CMD write. -/
theorem cmdWriteWhileBusyOnlySetsOverrun : Obligations.CmdWriteWhileBusyOnlySetsOverrun :=
  fun _ w hb => hostWrite_cmd_of_busy hb w

/-! ## A register read (R206) -/

theorem Reg.isDout_eq_false_iff {r : Reg} : r.isDout = false ↔ ∀ k, r ≠ .dout k := by
  cases r <;> simp [Reg.isDout]

/-- A read returns the value of the register, unless the register is DOUT and BUSY = 1. -/
theorem hostRead_eq_registerValue {s : State} {r : Reg} (h : s.eng.busy = false ∨ ∀ k, r ≠ .dout k) :
    hostRead r s = { s with rdata := registerValue s.eng r } := by
  have hvalue : (r.isDout && s.eng.busy) = false := by
    rcases h with hb | hr
    · rw [hb, Bool.and_false]
    · rw [Reg.isDout_eq_false_iff.2 hr, Bool.false_and]
  simp only [hostRead, hvalue, Bool.false_eq_true, if_false]

/-- Settles O17: a read returns the value of the register or, for DOUT while BUSY = 1, a free value; CMD and the reserved
offsets hold no state. -/
theorem hostReadHasNoSideEffect : Obligations.HostReadHasNoSideEffect := by
  unfold Obligations.HostReadHasNoSideEffect
  refine fun s r => ⟨hostRead_eq_registerValue, ?_, fun _ _ _ => hostRead_frame r s⟩
  rintro (rfl | ⟨n, rfl⟩) <;> rfl

end Sys2Proof.Machine
end

section
/-! The three outcomes of a launch (60_exceptions.md R239, R243): it stops on a forbidden footprint, and one that goes on
keeps the footprints in flight of different instances disjoint. -/

namespace Sys2Proof.Machine

/-! ## The outcomes of a launch (R69, R201, R243) -/

/-- A launch on memory with read side effects is refused. -/
theorem launch_deviceFootprint {s : State} {w : Word}
    (hdevice : regionsMeet (launchEngine s.eng w).latch.footprint s.deviceMem = true) :
    launch w s = .refused .deviceFootprint := by
  simp only [launch, hdevice, if_true]

/-- A launch on ordinary memory that meets a footprint in flight at another instance is a fault. -/
theorem launch_footprintOverlap {s : State} {w : Word}
    (hdevice : regionsMeet (launchEngine s.eng w).latch.footprint s.deviceMem = false)
    (hothers : regionsMeet (launchEngine s.eng w).latch.footprint s.otherFootprints = true) :
    launch w s = .fault .footprintOverlap := by
  simp only [launch, hdevice, hothers, Bool.false_eq_true, if_false, if_true]

/-- A launch that goes on meets no footprint in flight at another instance. -/
theorem launch_next {w : Word} {s t : State} (h : launch w s = .next t) :
    regionsMeet (launchEngine s.eng w).latch.footprint s.otherFootprints = false ∧
      t = { s with eng := launchEngine s.eng w } := by
  cases hdevice : regionsMeet (launchEngine s.eng w).latch.footprint s.deviceMem with
  | true => rw [launch_deviceFootprint hdevice] at h; cases h
  | false =>
    cases hothers : regionsMeet (launchEngine s.eng w).latch.footprint s.otherFootprints with
    | true => rw [launch_footprintOverlap hdevice hothers] at h; cases h
    | false => rw [launch_eq_next hdevice hothers] at h; cases h; exact ⟨rfl, rfl⟩

/-! ## Footprints in flight stay disjoint (R75, R243) -/

/-- An instance that is not busy has no footprint in flight. -/
theorem Engine.footprintInFlight_of_idle {e : Engine} (hb : e.busy = false) : e.footprintInFlight = [] := by
  simp [Engine.footprintInFlight, hb]

/-- The footprint in flight depends on BUSY and the latch only. -/
theorem Engine.footprintInFlight_congr {e f : Engine} (hb : f.busy = e.busy) (hl : f.latch = e.latch) :
    f.footprintInFlight = e.footprintInFlight := by
  unfold Engine.footprintInFlight
  rw [hb, hl]

theorem storeRegister_footprintInFlight (aw : Nat) (e : Engine) (r : Reg) (v : Word) :
    (storeRegister aw e r v).footprintInFlight = e.footprintInFlight := by
  cases r <;> exact Engine.footprintInFlight_congr rfl rfl

/-- Regions meet none of a list of lists exactly when they meet no list of it. -/
theorem regionsMeet_flatMap_eq_false {α : Type} (rs : List Region) (l : List α) (f : α → List Region) :
    regionsMeet rs (l.flatMap f) = false ↔ ∀ e ∈ l, regionsMeet rs (f e) = false := by
  simp only [regionsMeet, List.any_flatMap, List.any_eq_false, Bool.not_eq_true]
  exact ⟨fun h e he r hr => h r hr e he, fun h r hr e he => h e he r hr⟩

/-- Disjointness seen from the instance in focus: its footprint meets none in flight elsewhere, and those are
disjoint. -/
theorem State.footprintsDisjoint_iff (s : State) : s.FootprintsDisjoint ↔
    regionsMeet s.eng.footprintInFlight s.otherFootprints = false ∧
      (s.left.reverse ++ s.right).Pairwise fun e f =>
        regionsMeet e.footprintInFlight f.footprintInFlight = false := by
  rw [State.FootprintsDisjoint, State.engines,
    List.pairwise_middle fun {e f} h => (regionsMeet_comm f.footprintInFlight e.footprintInFlight).trans h,
    List.pairwise_cons, State.otherFootprints, regionsMeet_flatMap_eq_false]
  simp only [State.others, List.mem_append, List.mem_reverse]

/-- A change of the instance in focus keeps footprints disjoint when its footprint stays or meets none in flight
elsewhere. -/
theorem ChangesOnlyFocus.footprintsDisjoint {u t : State} (h : ChangesOnlyFocus u t) (hu : u.FootprintsDisjoint)
    (ht : t.eng.footprintInFlight = u.eng.footprintInFlight ∨
      regionsMeet t.eng.footprintInFlight u.otherFootprints = false) : t.FootprintsDisjoint := by
  rw [State.footprintsDisjoint_iff] at hu ⊢
  obtain ⟨heng, hothers⟩ := hu
  rw [State.otherFootprints, State.others, h.left, h.right]
  refine ⟨?_, hothers⟩
  rcases ht with ht | ht
  · exact ht ▸ heng
  · exact ht

/-- A register write keeps the footprint in flight of its instance, or launches one that meets none elsewhere. -/
theorem hostWrite_footprintInFlight {r : Reg} {v : Word} {s t : State} (h : hostWrite r v s = .next t) :
    t.eng.footprintInFlight = s.eng.footprintInFlight ∨
      regionsMeet t.eng.footprintInFlight s.otherFootprints = false := by
  by_cases hr : r = .cmd
  · subst hr
    cases hb : s.eng.busy with
    | true =>
      rw [hostWrite_cmd_of_busy hb] at h
      cases h
      exact .inl (Engine.footprintInFlight_congr rfl rfl)
    | false =>
      rw [hostWrite_cmd_of_idle hb] at h
      obtain ⟨hothers, rfl⟩ := launch_next h
      exact .inr hothers
  · rw [hostWrite_of_ne_cmd hr] at h
    cases h
    exact .inl (storeRegister_footprintInFlight _ _ _ _)

/-- A completed instance is not busy. -/
theorem exec_busy {i : Instr} {s t : State} (h : exec i s = .next t) : t.eng.busy = false := by
  rcases exec_cases h with ⟨c, -, rfl⟩ | ⟨-, u, -, rfl⟩ <;> rfl

theorem Move.footprintsDisjoint {s t : State} (h : Move s t) (hs : s.FootprintsDisjoint) : t.FootprintsDisjoint := by
  have hfocus {k : Nat} {u : State} (hf : (popEvent s).focus k = some u) (ht : ChangesOnlyFocus u t)
      (hfoot : t.eng.footprintInFlight = u.eng.footprintInFlight ∨
        regionsMeet t.eng.footprintInFlight u.otherFootprints = false) : t.FootprintsDisjoint := by
    obtain ⟨-, -, hengines⟩ := focus_popEvent_frame hf
    refine ht.footprintsDisjoint ?_ hfoot
    rw [State.FootprintsDisjoint, hengines]
    exact hs
  have hidle {k : Nat} {u : State} (hf : (popEvent s).focus k = some u) (ht : ChangesOnlyFocus u t)
      (hb : t.eng.busy = false) : t.FootprintsDisjoint :=
    hfocus hf ht (.inr (by rw [Engine.footprintInFlight_of_idle hb, regionsMeet_nil_left]))
  cases h with
  | idle | memWrite | memRead => exact hs
  | quiet hf => exact hfocus hf ⟨rfl, rfl, rfl, rfl, rfl, rfl⟩ (.inl rfl)
  | write hf h => exact hfocus hf (hostWrite_changesOnlyFocus h) (hostWrite_footprintInFlight h)
  | read hf => exact hfocus hf (hostRead_changesOnlyFocus _ _) (.inl (by rw [hostRead_frame]))
  | illegal hf => exact hidle hf (raiseError_changesOnlyFocus _ _) rfl
  | complete hf _ _ h => exact hidle hf (exec_changesOnlyFocus h) (exec_busy h)
  | reset hf => exact hidle hf (resetEngine_changesOnlyFocus _) rfl

/-- Settles O56: only a launch puts a footprint in flight, and it goes on only where that meets none elsewhere. -/
theorem footprintsStayDisjoint : Obligations.FootprintsStayDisjoint :=
  fun _ _ hs h => (step_move h).footprintsDisjoint hs

/-! ## A launch stops on a forbidden footprint (R69, R239, R243) -/

/-- The footprint of a latch that holds a command is that of the command. -/
theorem Latch.footprint_of_command {l : Latch} {i : Instr} (hi : l.command = .ok i) :
    l.footprint = Machine.footprint i l := by
  simp [Latch.footprint, hi]

theorem State.mem_otherFootprints (s : State) (r : Region) :
    r ∈ s.otherFootprints ↔ ∃ e ∈ s.others, e.busy = true ∧ r ∈ e.latch.footprint := by
  simp [State.otherFootprints, Engine.footprintInFlight]

/-- Settles O10: the launched latch holds the command, so its footprint is the one `launch` looks at. -/
theorem launchStopsOnForbiddenFootprint : Obligations.LaunchStopsOnForbiddenFootprint := by
  unfold Obligations.LaunchStopsOnForbiddenFootprint
  intro s w i hb hi
  rw [hostWrite_cmd_of_idle hb,
    ← Latch.footprint_of_command (show (launchEngine s.eng w).latch.command = .ok i from hi)]
  refine ⟨fun hmeet => launch_deviceFootprint ((regionsMeet_iff _ _).2 hmeet), ?_⟩
  rintro hdevice ⟨e, he, hbusy, a, hlaunched, t, ht, hta⟩
  exact launch_footprintOverlap hdevice ((regionsMeet_iff _ _).2
    ⟨a, hlaunched, t, (s.mem_otherFootprints t).2 ⟨e, he, hbusy, ht⟩, hta⟩)

end Sys2Proof.Machine
end

section
/-! What a completion reports (60_exceptions.md R220 to R231): ILLEGAL_CMD for a word that decodes to no command, the
code of `Check(L)` for one that does, and UNSUPPORTED for the BCU commands exactly without the BCU. -/

namespace Sys2Proof

/-! ## Illegal words (R223) -/

/-- Every opcode is in the opcode map (R88). -/
theorem Instr.opcode_mem_assignedOps (i : Instr) : i.opcode ∈ Machine.assignedOps := by
  cases i <;> simp [Instr.opcode, Machine.assignedOps]

/-- A command whose row of the opcode map has no ARG operand has ARG = 0x00 (R87, R88). -/
theorem Instr.argByte_of_not_mem {i : Instr} (hop : i.opcode ∉ [0x10#8, 0x19#8, 0x25#8]) : i.argByte = 0x00#8 := by
  cases i with
  | aesKeyinit | aesRkread | aesKeystep => simp [Instr.opcode] at hop
  | _ => rfl

/-- ARG[7:1] of AES_KEYINIT is 0 (R88). -/
theorem Instr.argByte_of_keyinit {i : Instr} (hop : i.opcode = 0x10#8) : i.argByte.extractLsb' 1 7 = 0#7 := by
  cases i with
  | aesKeyinit dec => cases dec <;> rfl
  | _ => simp [Instr.opcode] at hop

/-- No word with one of the causes of R223 decodes to a command. -/
theorem decode_ne_ok_of_illegalWord {w : Word} (hw : Machine.IllegalWord w) (i : Instr) : decode w ≠ .ok i := by
  intro hi
  obtain ⟨hwf, hrsv, harg, hop⟩ := (decode_eq_ok_iff w i).1 hi
  rw [opField] at hop
  rw [argField] at harg
  have hreserved : w.extractLsb' 9 7 = (w.extractLsb' 8 8).extractLsb' 1 7 := by
    ext k hk
    have hlt : 1 + k < 8 := by omega
    simp [hlt, ← Nat.add_assoc]
  rw [Machine.IllegalWord, hreserved, hop, harg] at hw
  rcases hw with hw | hw | ⟨-, hw, hne⟩ | ⟨hw, hne⟩ | ⟨hw, hlt⟩
  · exact hw hrsv
  · exact hw i.opcode_mem_assignedOps
  · exact hne (Instr.argByte_of_not_mem hw)
  · exact hne (Instr.argByte_of_keyinit hw)
  · exact Nat.not_le.2 hlt (Instr.toNat_argByte_le hwf hw)

end Sys2Proof

namespace Sys2Proof.Machine

/-- Settles O3: the latch holds the fields of the word, which decode to no command. -/
theorem illegalWordCompletesWithIllegalCmd : Obligations.IllegalWordCompletesWithIllegalCmd := by
  unfold Obligations.IllegalWordCompletesWithIllegalCmd
  intro s w rest hw he hb hop harg hrsv
  have hlatch : s.eng.latch.command = decode w := by rw [Latch.command, hop, harg, hrsv]; rfl
  cases hd : decode w with
  | error d => exact step_complete_illegal he hb (hlatch.trans hd)
  | ok i => exact absurd hd (decode_ne_ok_of_illegalWord hw i)

/-! ## A completion reports the code of `Check(L)` (R222, R226) -/

/-- The pseudocode of a command ends with no error but BAD_STATE (R176, R231). -/
theorem eq_badState_of_effectOf_eq_error {i : Instr} {s : State} {c : ErrCode} (h : effectOf i s s = .error c) :
    c = .badState := by
  cases i <;> simp only [effectOf, reduceCtorEq] at h
  simp only [strLoadEffect] at h
  split at h <;> cases h
  rfl

/-- Regions that do not meet still do not when one side has fewer addresses. -/
theorem regionsMeet_eq_false_of_subset {rs rs' ts : List Region}
    (hsub : ∀ a, (∃ r ∈ rs', r.contains a = true) → ∃ r ∈ rs, r.contains a = true)
    (h : regionsMeet rs ts = false) : regionsMeet rs' ts = false := by
  rw [← Bool.not_eq_true, regionsMeet_iff] at h ⊢
  rintro ⟨a, ha, hts⟩
  exact h ⟨a, hsub a ha, hts⟩

/-- The key bytes a CCU command reads are bytes of the key region (R191). -/
theorem Latch.keyRegion_contains_of_accessed {l : Latch} {a : Nat} (h : (chainKeyAccessed l).contains a = true) :
    l.keyRegion.contains a = true := by
  rw [Region.contains_iff] at h ⊢
  obtain ⟨hbase, hlt⟩ := h
  exact ⟨hbase, hlt.trans_le (Nat.add_le_add_left (Nat.min_le_left _ _) _)⟩

/-- A command accesses bytes of its footprint only (R66, R191). -/
theorem contains_footprint_of_portAccesses {i : Instr} {l : Latch} {a : Nat}
    (h : ∃ r ∈ portAccesses i l, r.contains a = true) : ∃ r ∈ footprint i l, r.contains a = true := by
  cases i
  case chnEnc | chnDec =>
    have hsplit : l.buffer.contains a = true ∨ (chainKeyAccessed l).contains a = true := by
      simpa [portAccesses, Instr.isChain, Instr.opcode] using h
    rcases hsplit with hbuffer | hkey
    · exact ⟨l.buffer, by simp [footprint, writtenFootprint], hbuffer⟩
    · exact ⟨l.keyRegion, by simp [footprint, readOnlyFootprint], Latch.keyRegion_contains_of_accessed hkey⟩
  all_goals exact h

/-- A platform that refuses nothing of the footprint refuses none of the accesses. -/
theorem portOpen_portAccesses {i : Instr} {s : State} (h : PortOpen s (footprint i s.eng.latch)) :
    PortOpen s (portAccesses i s.eng.latch) :=
  regionsMeet_eq_false_of_subset (fun _ => contains_footprint_of_portAccesses) h

/-- A command with a failing check of `Check(L)` completes with the code of the first. -/
theorem exec_of_checkLatch_ne_none {i : Instr} {s : State} (hi : s.eng.latch.command = .ok i)
    (hcheck : checkLatch s ≠ .none) (hport : checkLatch s = .badState → PortOpen s (portAccesses i s.eng.latch)) :
    exec i s = .next (raiseError (checkLatch s) s) := by
  rw [checkLatch_eq hi] at hcheck hport ⊢
  cases hc : firstError (checksOf i s) with
  | some c => rw [exec_eq_command]; exact command_error hc
  | none =>
    rw [hc, Option.getD_none] at hcheck hport
    rw [Option.getD_none]
    cases heffect : effectOf i s s with
    | ok u => simp [effectCode, heffect] at hcheck
    | error c =>
      have hcode : effectCode i s = c := by simp [effectCode, heffect]
      rw [hcode] at hport ⊢
      have hbad := eq_badState_of_effectOf_eq_error heffect
      exact exec_eq_raiseError_of_portOpen (hport hbad) (firstError_eq_none.1 hc) heffect

/-- A command that passes `Check(L)` completes with its effect. -/
theorem exec_of_checkLatch_eq_none {i : Instr} {s : State} (hi : s.eng.latch.command = .ok i)
    (hcheck : checkLatch s = .none) (hport : PortOpen s (portAccesses i s.eng.latch)) :
    ∃ u, effectOf i s s = .ok u ∧ exec i s = .next (finish u) := by
  have hc := firstError_checksOf_eq_none hi (.inl hcheck)
  cases heffect : effectOf i s s with
  | ok u => exact ⟨u, rfl, exec_eq_finish_of_portOpen hport (firstError_eq_none.1 hc) heffect⟩
  | error c =>
    obtain rfl := eq_badState_of_effectOf_eq_error heffect
    rw [checkLatch_eq hi, hc, effectCode, heffect] at hcheck
    cases hcheck

/-- Settles O22: an illegal word reports ILLEGAL_CMD, and a command what `Check(L)` reports. -/
theorem completionReportsFirstFailingCheck : Obligations.CompletionReportsFirstFailingCheck := by
  unfold Obligations.CompletionReportsFirstFailingCheck
  intro s rest he hb
  cases hd : s.eng.latch.command with
  | error d =>
    have hcheck : checkLatch s = .illegalCmd := by simp only [checkLatch, hd]
    rw [hcheck]
    exact ⟨fun _ _ => step_complete_illegal he hb hd, fun h => nomatch h⟩
  | ok i =>
    rw [Latch.footprint_of_command hd, step_complete he hb hd]
    refine ⟨fun hcheck hport => exec_of_checkLatch_ne_none (s := { s with events := rest }) hd hcheck
      fun hbad => portOpen_portAccesses (hport hbad), fun hcheck hport => ?_⟩
    obtain ⟨u, hu, hexec⟩ := exec_of_checkLatch_eq_none (s := { s with events := rest }) hd hcheck
      (portOpen_portAccesses hport)
    have hframe := effectOf_frame hu
    exact ⟨_, hexec, rfl, rfl, by rw [hframe]; rfl, by rw [hframe]; rfl⟩

/-! ## UNSUPPORTED (R224) -/

/-- Without the BCU, the first failing check of a BCU command is that of the unit. -/
theorem firstError_checksOf_of_bcu {i : Instr} {s : State} (hwf : i.wellFormed = true)
    (hbcu : Instr.isBcu i = true) (haes : s.eng.hasAes = false) :
    firstError (checksOf i s) = some .unsupported := by
  have hunit : requireBcu s = some .unsupported := by simp [requireBcu, haes]
  cases i with
  | aesRkread slot =>
    have hslot : requireSlot slot = none := if_pos hwf
    simp only [checksOf, hslot, hunit, firstError_none_cons, firstError_some_cons]
  | strInit | strXform | strSave | strLoad | chnEnc | chnDec => simp [Instr.isBcu, Instr.opcode] at hbcu
  | _ => simp only [checksOf, hunit, firstError_some_cons]

/-- With the BCU, no check reports UNSUPPORTED. -/
theorem checksOf_ne_unsupported {i : Instr} {s : State} (haes : s.eng.hasAes = true) :
    some ErrCode.unsupported ∉ checksOf i s := by
  cases i <;> simp [checksOf, requireBcu, haes, requireKey, requireInvKey, requireStream, requireStreamKeyLen,
    requireChainKeyLen, requireWholeBlocks, requireRange, requireDisjoint, requireSlot, requireSlotValid]

/-- An error completion reports a failing check or the error of the pseudocode. -/
theorem exec_reported_cases {i : Instr} {s t : State} (h : exec i s = .next t) :
    (∃ c, (some c ∈ checksOf i s ∨ effectOf i s s = .error c) ∧ t = raiseError c s) ∨
      ∃ u, effectOf i s s = .ok u ∧ t = finish u := by
  rw [exec_eq_command] at h
  rcases command_cases s (checksOf i s) (portAccesses i s.eng.latch) (effectOf i s) with
    ⟨c, hc, he⟩ | ⟨-, -, he⟩ | ⟨-, -, ⟨c, hc, he⟩ | ⟨u, hu, he⟩⟩ <;> rw [he] at h <;> cases h
  · exact .inl ⟨c, .inl (firstError_mem hc), rfl⟩
  · exact .inl ⟨c, .inr hc, rfl⟩
  · exact .inr ⟨u, hu, rfl⟩

/-- Settles O26: the check of the unit is the first of every BCU command, and the one check that reports UNSUPPORTED. -/
theorem unsupportedExactlyWithoutBcu : Obligations.UnsupportedExactlyWithoutBcu := by
  unfold Obligations.UnsupportedExactlyWithoutBcu
  refine ⟨fun i s hwf hop haes => ?_, fun i s t haes hcode h => ?_⟩
  · have hbcu : Instr.isBcu i = true := by
      unfold Instr.isBcu
      generalize i.opcode = op at hop ⊢
      revert op; decide
    rw [exec_eq_command]
    exact command_error (firstError_checksOf_of_bcu hwf hbcu haes)
  · rcases exec_reported_cases h with ⟨c, hc, rfl⟩ | ⟨u, hu, rfl⟩
    · show c ≠ .unsupported
      rintro rfl
      rcases hc with hc | hc
      · exact checksOf_ne_unsupported haes hc
      · cases eq_badState_of_effectOf_eq_error hc
    · have hkept : u.eng.errcode = s.eng.errcode := by rw [effectOf_frame hu]
      exact hkept ▸ hcode

end Sys2Proof.Machine
end

section
/-! Register writes while a command is in flight (44_control.md R203; 70_reset_and_hazards.md R258): they reach CTRL.IE, OVR
and the operand registers only, and the meaning of a command reads none of these. -/

namespace Sys2Proof.Machine

/-! ## The registers a host can change while BUSY = 1 -/

/-- The instance with CTRL.IE, OVR and the operand registers of `f`. -/
def Engine.withHostRegisters (e f : Engine) : Engine :=
  { e with ie := f.ie, ovr := f.ovr, addr := f.addr, len := f.len, kaddr := f.kaddr, klen := f.klen,
           key := f.key, din := f.din, rkin := f.rkin }

/-- The state whose instance in focus has CTRL.IE, OVR and the operand registers of `f`. -/
def State.withHostRegisters (f : Engine) (s : State) : State := { s with eng := s.eng.withHostRegisters f }

/-- With DONE, ERR and ERRCODE clear, a register write changes nothing else. -/
theorem storeRegister_eq_withHostRegisters {e : Engine} (hdone : e.done = false) (herr : e.err = false)
    (hcode : e.errcode = .none) (aw : Nat) (r : Reg) (v : Word) :
    storeRegister aw e r v = e.withHostRegisters (storeRegister aw e r v) := by
  cases r with
  | status => simp [storeRegister, Engine.writeStatus, Engine.withHostRegisters, hdone, herr, hcode]
  | _ => rfl

/-- A register write while BUSY = 1 answers a next state and changes nothing else: a CMD write is dropped (R203), and
DONE, ERR and ERRCODE are already clear. -/
theorem hostWrite_of_busy {s : State} (hb : s.eng.busy = true) (hs : s.eng.FlagsConsistent) (r : Reg) (v : Word) :
    ∃ f, hostWrite r v s = .next (s.withHostRegisters f) := by
  by_cases hr : r = .cmd
  · subst hr
    exact ⟨s.eng.setOverrun, hostWrite_cmd_of_busy hb v⟩
  · obtain ⟨-, hcode, hclear⟩ := hs
    obtain ⟨hdone, herr⟩ := hclear hb
    refine ⟨storeRegister s.aw s.eng r v, ?_⟩
    rw [hostWrite_of_ne_cmd hr, State.withHostRegisters,
      ← storeRegister_eq_withHostRegisters hdone herr (hcode.2 herr)]

/-! ## No meaning reads them (R258) -/

section
variable (f : Engine) (i : Instr) (s : State)

theorem checksOf_withHostRegisters : checksOf i (s.withHostRegisters f) = checksOf i s := by
  cases i <;> rfl

theorem strLoadEffect_withHostRegisters :
    strLoadEffect (s.withHostRegisters f) = (strLoadEffect s).map (State.withHostRegisters f) := by
  cases hp : isPermutation ((readBytes s.mem s.eng.latch.addr.toNat 258).take 256) <;>
    simp only [strLoadEffect, State.withHostRegisters, Engine.withHostRegisters, hp, Bool.false_eq_true, if_true, if_false,
      Except.map, setStreamValid, setGen]

/-- The effect of a command with other host registers is its effect, with those registers. -/
theorem effectOf_withHostRegisters : effectOf i (s.withHostRegisters f) (s.withHostRegisters f) =
    (effectOf i s s).map (State.withHostRegisters f) := by
  cases i with
  | strLoad => exact strLoadEffect_withHostRegisters f s
  | strInit =>
    simp only [effectOf, strInitEffect_eq, Except.map, State.withHostRegisters, Engine.withHostRegisters]
  | _ => rfl

end

/-- A command completes with other host registers as it does without, those registers kept. -/
theorem exec_withHostRegisters {i : Instr} {s u : State} (f : Engine) (h : exec i s = .next u) :
    exec i (s.withHostRegisters f) = .next (u.withHostRegisters f) := by
  have heffect := effectOf_withHostRegisters f i s
  have hchecks := checksOf_withHostRegisters f i s
  rw [exec_eq_command] at h
  rcases command_cases s (checksOf i s) (portAccesses i s.eng.latch) (effectOf i s) with
    ⟨c, hc, he⟩ | ⟨-, -, he⟩ | ⟨hn, hport, ⟨c, hc, he⟩ | ⟨t, ht, he⟩⟩ <;> rw [he] at h <;> cases h
  · rw [exec_eq_command]
    exact command_error (hchecks ▸ hc)
  · rw [hc] at heffect
    exact exec_eq_raiseError_of_portOpen (s := s.withHostRegisters f) hport (firstError_eq_none.1 hn) heffect
  · rw [ht] at heffect
    exact exec_eq_finish_of_portOpen (s := s.withHostRegisters f) hport (firstError_eq_none.1 (hchecks ▸ hn)) heffect

/-- Settles O12: the write changes host registers only, which no meaning reads or writes. -/
theorem registerWritesDoNotAffectCommandInFlight : Obligations.RegisterWritesDoNotAffectCommandInFlight := by
  unfold Obligations.RegisterWritesDoNotAffectCommandInFlight
  intro s r v hb hs
  obtain ⟨f, hwrite⟩ := hostWrite_of_busy hb hs r v
  exact ⟨_, hwrite, rfl, hb, rfl, fun i u h =>
    ⟨_, exec_withHostRegisters f h, rfl, rfl, rfl, rfl, rfl, rfl, rfl, rfl, rfl, rfl, rfl, rfl⟩⟩

end Sys2Proof.Machine
end

section
/-! Reset of one instance in a run (70_reset_and_hazards.md R250 to R252): its registers, and the memory it leaves. -/

namespace Sys2Proof.Machine

/-- A reset event of instance k resets the state with instance k in focus. -/
theorem step_eq_resetEngine {s u : State} {k : Nat} {rest : List Event} (he : s.events = .reset k :: rest)
    (hu : InFocus { s with events := rest } u k) : step s = .next (resetEngine u) := by
  rw [step_of_events he]
  simp only [runEvent, resetNumber, State.focus_of_inFocus hu]

/-- After a reset every register but CAPS reads 0, and CAPS as before (R52, R250). -/
theorem registerValue_resetEngine (s : State) (r : Reg) :
    registerValue (resetEngine s).eng r = if r = .caps then registerValue s.eng .caps else 0#32 := by
  by_cases hr : r = .caps
  · subst hr
    rfl
  · have hreset : registerValue (resetEngine s).eng r = registerValue State.reset.eng r := by
      cases r with
      | caps => exact absurd rfl hr
      | _ => rfl
    rw [hreset, registerValue_reset, if_neg hr, if_neg hr]

/-! ## Memory after a reset (R252) -/

@[simp] theorem length_freeBytes (d a n : Nat) : (freeBytes d a n).length = n := by simp [freeBytes]

/-- A byte outside the regions reads as before. -/
theorem readByte_scrambleRegions_other {m : Memory} (hm : Memory.wf m) (aw d : Nat) {rs : List Region} {a : Nat}
    (ha : ∀ r ∈ rs, r.contains a = false) : readByte (scrambleRegions aw d rs m) a = readByte m a := by
  induction rs generalizing m with
  | nil => rfl
  | cons r rs ih =>
    obtain ⟨hr, hrs⟩ := List.forall_mem_cons.1 ha
    rw [Region.contains_eq_false_iff] at hr
    have hfirst : readByte (scrambleRegion aw d r m) a = readByte m a :=
      readByte_writeBytes_other hm (by rw [length_freeBytes]; omega)
    exact (ih (writeBytes_wf hm _ _) hrs).trans hfirst

/-- A reset leaves every byte outside the written part of the footprint in flight. -/
theorem readByte_memoryAfterReset_other {s : State} (hm : Memory.wf s.mem) {a : Nat}
    (ha : s.eng.busy = false ∨ ∀ r ∈ s.eng.latch.writtenFootprint, r.contains a = false) :
    readByte (memoryAfterReset s) a = readByte s.mem a := by
  unfold memoryAfterReset
  split
  · rename_i hb
    exact readByte_scrambleRegions_other hm _ _ (ha.resolve_left (by simp [hb]))
  · rfl

/-- Settles O28: the step is `resetEngine` at instance k. -/
theorem resetOfInstance : Obligations.ResetOfInstance := by
  unfold Obligations.ResetOfInstance
  intro s u k rest hm he hu
  have hstep := step_eq_resetEngine he hu
  obtain ⟨hengines, rfl, hframe⟩ := hu
  have hmem : u.mem = s.mem := by rw [hframe]
  refine ⟨_, hstep, State.engines_number (resetEngine u), fun j hj => ?_, registerValue_resetEngine u, rfl, rfl, rfl, rfl,
    rfl, fun a ha => ?_⟩
  · rw [(resetEngine_changesOnlyFocus u).getElem?_engines_of_ne hj, hengines]
    rfl
  · rw [← hmem] at hm ⊢
    exact readByte_memoryAfterReset_other hm ha

end Sys2Proof.Machine
end

section
/-! The end of a run (70_reset_and_hazards.md R271, R273): with no event left a busy instance completes, and a host that polls
STATUS reads BUSY = 0. -/

namespace Sys2Proof.Machine

/-! ## No event left (log 10) -/

/-- No instance is the lowest-numbered busy one exactly when none is busy. -/
theorem State.firstBusy_eq_none_iff (s : State) : s.firstBusy = none ↔ ∀ e ∈ s.engines, e.busy = false := by
  simp only [State.firstBusy, List.findIdx?_eq_none_iff]

/-- A busy instance in focus with no busy one of a smaller number is the lowest-numbered busy one. -/
theorem State.firstBusy_of_focus_busy {s : State} (hleft : ∀ e ∈ s.left, e.busy = false) (hb : s.eng.busy = true) :
    s.firstBusy = some s.number := by
  have hnone : s.left.reverse.findIdx? Engine.busy = none :=
    List.findIdx?_eq_none_iff.2 fun e he => hleft e (List.mem_reverse.1 he)
  simp [State.firstBusy, State.engines, State.number, List.findIdx?_append, hnone, List.findIdx?_cons, hb]

/-- With no event left and no instance busy, a step changes nothing. -/
theorem step_of_idle {s : State} (he : s.events = []) (hidle : ∀ e ∈ s.engines, e.busy = false) : step s = .next s := by
  simp only [step, agentStep, he, drain, s.firstBusy_eq_none_iff.2 hidle]

/-- With no event left, the lowest-numbered busy instance takes its completion step. -/
theorem step_of_no_event {s : State} (he : s.events = []) (hleft : ∀ e ∈ s.left, e.busy = false)
    (hb : s.eng.busy = true) : step s = completion exec s := by
  simp only [step, agentStep, he, drain, State.firstBusy_of_focus_busy hleft hb, completeNumber, State.focus_number]

/-- Settles O7: an idle machine has no step to take, and the completion of a busy one is its latched command. -/
theorem emptyQueueCompletesBusyInstance : Obligations.EmptyQueueCompletesBusyInstance := by
  unfold Obligations.EmptyQueueCompletesBusyInstance
  exact fun s he => ⟨step_of_idle he, fun i hleft hb hi =>
    (step_of_no_event he hleft hb).trans (completion_of_command hb hi)⟩

/-! ## A completion whose footprint the platform does not refuse comes to an end (R71, R202) -/

/-- A command completes when the platform refuses none of its accesses. -/
theorem exists_exec_eq_next {i : Instr} {s : State} (hport : PortOpen s (portAccesses i s.eng.latch)) :
    ∃ t, exec i s = .next t := by
  rw [exec_eq_command]
  rcases command_cases s (checksOf i s) (portAccesses i s.eng.latch) (effectOf i s) with
    ⟨c, -, he⟩ | ⟨-, hrefused, -⟩ | ⟨-, -, ⟨c, -, he⟩ | ⟨u, -, he⟩⟩
  · exact ⟨_, he⟩
  · exact absurd (hport.symm.trans hrefused) (by decide)
  · exact ⟨_, he⟩
  · exact ⟨_, he⟩

/-- The completion of a busy instance answers a next state with BUSY = 0, whatever its latch holds, and changes only that
instance and no event. -/
theorem exists_completion_eq_next {s : State} (hb : s.eng.busy = true) (hport : PortOpen s s.eng.latch.footprint) :
    ∃ t, completion exec s = .next t ∧ t.eng.busy = false ∧ ChangesOnlyFocus s t ∧ t.events = s.events := by
  cases hd : s.eng.latch.command with
  | error d => exact ⟨_, completion_of_illegal hb hd, rfl, raiseError_changesOnlyFocus _ s, rfl⟩
  | ok i =>
    rw [Latch.footprint_of_command hd] at hport
    obtain ⟨t, ht⟩ := exists_exec_eq_next (portOpen_portAccesses hport)
    exact ⟨t, (completion_of_command hb hd).trans ht, exec_busy ht, exec_changesOnlyFocus ht, by rw [exec_frame ht]⟩

/-! ## Polling STATUS on a machine with one instance (R93, R273) -/

/-- A run of n + 1 steps is its first step and the run of the others. -/
theorem run_succ_of_step {s t : State} (h : step s = .next t) (n : Nat) :
    Sys2Proof.core.run (n + 1) s = Sys2Proof.core.run n t := by
  have hcore : Sys2Proof.core.step s = .next t := h
  simp only [Host.Core.run, hcore]

section
variable {s : State} (hleft : s.left = []) (hright : s.right = [])
include hleft hright

/-- On a machine with one instance, an address in its block finds it in focus. -/
theorem State.focusAddress_of_single {a : Nat} (ha : s.eng.ownsAddress a = true) : s.focusAddress a = some s := by
  have hfocus : s.focus 0 = some s := by simpa [State.number, hleft] using s.focus_number
  simp [State.focusAddress, State.engines, hleft, hright, List.findIdx?_cons, ha, hfocus]

/-- A STATUS read returns STATUS and changes nothing else. -/
theorem step_rd_status {rest : List Event} (he : s.events = rd s.eng.base .status :: rest) :
    step s = .next { s with events := rest, rdata := s.eng.statusWord } := by
  have howns : s.eng.ownsAddress (s.eng.base + Reg.status.offset) = true :=
    (Engine.ownsAddress_iff _ _).2 ⟨Nat.le_add_right _ _, Nat.add_lt_add_left (by decide) _⟩
  have hfocus := State.focusAddress_of_single (s := { s with events := rest }) hleft hright howns
  rw [step_of_events he]
  refine (busRead_offset (t := { s with events := rest }) hfocus).trans ?_
  rw [hostRead_eq_registerValue (.inr fun k => by simp)]
  rfl

/-- A STATUS read of an idle engine returns BUSY = 0 (R24). -/
theorem exists_step_rd_status_of_idle (hidle : s.eng.busy = false) {rest : List Event}
    (he : s.events = rd s.eng.base .status :: rest) :
    ∃ u, step s = .next u ∧ u.eng.busy = false ∧ u.rdata.getLsbD 0 = false := by
  obtain ⟨hbusy, -⟩ := getLsbD_statusWord s.eng
  exact ⟨_, step_rd_status hleft hright he, hidle, hbusy.trans hidle⟩

/-- n STATUS reads change the value last read and nothing else. -/
theorem run_polls (k : Nat) {n : Nat} {rest : List Event}
    (he : s.events = List.replicate n (rd s.eng.base .status) ++ rest) :
    ∃ v, Sys2Proof.core.run (n + k) s = Sys2Proof.core.run k { s with events := rest, rdata := v } := by
  induction n generalizing s with
  | zero =>
    obtain rfl : s.events = rest := he
    exact ⟨s.rdata, by rw [Nat.zero_add]⟩
  | succ n ih =>
    obtain ⟨v, hv⟩ := ih (s := { s with
      events := List.replicate n (rd s.eng.base .status) ++ rest, rdata := s.eng.statusWord }) hleft hright rfl
    refine ⟨v, Eq.trans ?_ hv⟩
    rw [Nat.add_right_comm]
    exact run_succ_of_step (step_rd_status hleft hright he) _

end

/-- Settles O8: the polls change only the value read, then the completion clears BUSY, which the next STATUS read shows. -/
theorem waitLoopEnds : Obligations.WaitLoopEnds := by
  unfold Obligations.WaitLoopEnds
  intro s n hleft hright hb hport
  constructor
  · intro he
    obtain ⟨v, hpolls⟩ := run_polls hleft hright 1 (rest := []) (he.trans (List.append_nil _).symm)
    obtain ⟨t, ht, hidle, hfocus, -⟩ := exists_completion_eq_next (s := { s with events := [], rdata := v }) hb hport
    have hstep := (step_of_no_event (s := { s with events := [], rdata := v }) rfl (by simp [hleft]) hb).trans ht
    obtain ⟨u, hread, -, hu⟩ := exists_step_rd_status_of_idle (s := { t with events := [rd s.eng.base .status] })
      (hfocus.left.trans hleft) (hfocus.right.trans hright) hidle (by rw [hfocus.base])
    exact ⟨t, u, hpolls.trans (run_succ_of_step hstep 0), hidle, hread, hu⟩
  · intro he
    obtain ⟨v, hpolls⟩ := run_polls hleft hright 2 he
    obtain ⟨t, ht, hidle, hfocus, hevents⟩ :=
      exists_completion_eq_next (s := { s with events := [rd s.eng.base .status], rdata := v }) hb hport
    have hstep := (step_eq_completion (s := { s with events := [.complete 0, rd s.eng.base .status], rdata := v }) rfl
      ⟨rfl, by simp [State.number, hleft], rfl⟩).trans ht
    obtain ⟨u, hread, hu⟩ := exists_step_rd_status_of_idle (hfocus.left.trans hleft) (hfocus.right.trans hright) hidle
      (hevents.trans (by rw [hfocus.base]))
    exact ⟨u, hpolls.trans ((run_succ_of_step hstep 1).trans (run_succ_of_step hread 0)), hu⟩

end Sys2Proof.Machine
end
